-- ==== Sys2Proof/Word.lean ====
section
/-! DEFINITION. Bytes, and the plainest arithmetic the manual's counters use. -/

namespace Sys2Proof

/-- A byte of a telegram, a frame or the configuration image (12). -/
abbrev Byte := BitVec 8

/-- Bytes in the order they are sent. -/
abbrev Bytes := List Byte

end Sys2Proof
end

