-- ==== Sys2Proof/Syntax.lean ====
section
/-! DEFINITION. The commands of the block: one constructor for each row of spec/opcode_table.json.

Operands are what the event brings from outside the state. `cycle` is the REFCLK cycle within the present
tick (0 to 99,999) at which the event happens (log 5). An event that acts on the head of a queue (a received
telegram, a field report) has no operand: the head is the data. -/

namespace Sys2Proof

/-- The events of the LSC-2 (spec/opcode_table.json). -/
inductive Instr where
  /-- POWER_ON, R193 -/
  | powerOn
  /-- RESET_ASSERT, R193 -/
  | resetAssert
  /-- RESET_RELEASE, R193 -/
  | resetRelease
  /-- IMAGE_CHECKED, R192: the bytes the configuration memory gives, from its first. -/
  | imageChecked (image : Bytes)
  /-- LISTEN_END, R194 -/
  | listenEnd
  /-- REBUILD_TIMER_EXPIRY, R64 -/
  | rebuildTimerExpiry
  /-- RESTART_NODE, R196: the directive at the head of the receive queue. -/
  | restartNode
  /-- WARM_START, R196 -/
  | warmStart
  /-- TICK, R148 -/
  | tick
  /-- CLOCK_TRIM, R159 -/
  | clockTrim
  /-- STATUS_PERIOD, R152 -/
  | statusPeriod
  /-- TRACK_INPUT_CHANGE, R178: the pin's new electrical level. -/
  | trackInputChange (input cycle : Nat) (high : Bool)
  /-- FIRST_LEVEL, R179 -/
  | firstLevel (input cycle : Nat)
  /-- BERTH_RISE, R10 -/
  | berthRise (input cycle : Nat)
  /-- BRAKE_POINT_RISE, R13 -/
  | brakePointRise (input cycle : Nat)
  /-- BERTH_FALL, R14 -/
  | berthFall (input cycle : Nat)
  /-- DWELL_MARK, R34 -/
  | dwellMark (platform : Nat)
  /-- DWELL_EXPIRY, R33 -/
  | dwellExpiry (platform : Nat)
  /-- AUTH_WAIT_EXPIRY, R37 -/
  | authWaitExpiry (platform : Nat)
  /-- CUE_WAIT_EXPIRY, R41 -/
  | cueWaitExpiry (platform : Nat)
  /-- POWER_WAIT_EXPIRY, R35 -/
  | powerWaitExpiry (platform : Nat)
  /-- HANDOVER_RETRY_EXPIRY, R51: the record's tag. -/
  | handoverRetryExpiry (tag : Nat)
  /-- ORPHAN_RETRY_EXPIRY, R56: the record's tag. -/
  | orphanRetryExpiry (tag : Nat)
  /-- HANDOVER, R57 -/
  | handover
  /-- TAKEOVER, R52 -/
  | takeover
  /-- REFUSAL, R53 -/
  | refusal
  /-- STALL_WATCH_EXPIRY, R63: the record's tag. -/
  | stallWatchExpiry (tag : Nat)
  /-- RENEW_ASK, R65 -/
  | renewAsk
  /-- RENEW_REPLY, R66 -/
  | renewReply
  /-- GATE_COMPLETION, R71: the section record and the rising edges seen in the gate. -/
  | gateCompletion (record edges : Nat)
  /-- RECLOSE_DELAY_EXPIRY, R79: the section record. -/
  | recloseDelayExpiry (record : Nat)
  /-- CLOSE_ALLOWANCE_EXPIRY, R80: the section record. -/
  | closeAllowanceExpiry (record : Nat)
  /-- ISOLATE_SECTION, R84 -/
  | isolateSection
  /-- RESTORE_SECTION, R85 -/
  | restoreSection
  /-- COUNTED_START_EXPIRY, R91: the section record. -/
  | countedStartExpiry (record : Nat)
  /-- RETRY_WAIT_END, R95: the platform. -/
  | retryWaitEnd (platform : Nat)
  /-- ASK_WAIT_END, R99: the platform. -/
  | askWaitEnd (platform : Nat)
  /-- POWER_ASK, R96 -/
  | powerAsk
  /-- QUEUED_ASK_REFRESH_EXPIRY, R97: the section record. -/
  | queuedAskRefreshExpiry (record : Nat)
  /-- POWER_RETURN, R98 -/
  | powerReturn
  /-- POWER_GRANT, R100 -/
  | powerGrant
  /-- POWER_DEFER, R100 -/
  | powerDefer
  /-- TAKEN_START_EXPIRY, R100: the section record. -/
  | takenStartExpiry (record : Nat)
  /-- ACK_INCIDENT, R115 -/
  | ackIncident
  /-- CLEAR_INCIDENT, R116 -/
  | clearIncident
  /-- DECLARE_INCIDENT, R117 -/
  | declareIncident
  /-- CLEAR_OVERFLOW, R122 -/
  | clearOverflow
  /-- CLEARED_LINGER_END, R118: the incident's id. -/
  | clearedLingerEnd (origin serial : Nat)
  /-- ESCALATION_EXPIRY, R120: the own incident's serial. -/
  | escalationExpiry (serial : Nat)
  /-- INCIDENT, R123 -/
  | incident
  /-- PEER_AGEING, R124: the peer incident's id. -/
  | peerAgeing (origin serial : Nat)
  /-- INCIDENT_REFRESH, R128: the own incident's serial. -/
  | incidentRefresh (serial : Nat)
  /-- ANNOUNCE, R136 -/
  | announce
  /-- CANCEL_ANNOUNCE, R136 -/
  | cancelAnnounce
  /-- WAKE_TIMER_EXPIRY, R138 -/
  | wakeTimerExpiry
  /-- READY_RISE, R142 -/
  | readyRise
  /-- READY_FALL, R142 -/
  | readyFall
  /-- PLAYER_TIMER_EXPIRY, R142 -/
  | playerTimerExpiry
  /-- TRANSMIT_START, R163: the moment, the bit times the line has been quiet, and whether the line
  echoes the first bit within 24 bit times. -/
  | transmitStart (cycle quiet : Nat) (echoed : Bool)
  /-- TELEGRAM_SENT, R164 -/
  | telegramSent (cycle : Nat)
  /-- COLLISION, R164 -/
  | collision (cycle : Nat)
  /-- ECHO_FAULT, R166 -/
  | echoFault (cycle : Nat)
  /-- LINE_BUS_FAULT_QUIET_END, R165 -/
  | lineBusFaultQuietEnd
  /-- TELEGRAM_RECEIVED, R167: the bytes received whole. -/
  | telegramReceived (cycle : Nat) (bytes : Bytes)
  /-- STATUS, R170 -/
  | status
  /-- NEIGHBOUR_ABSENT, R170: the watched node. -/
  | neighbourAbsent (node : Nat)
  /-- PLAN_OPEN, R173 -/
  | planOpen
  /-- PLAN_BLOCK, R174 -/
  | planBlock
  /-- PLAN_CLOSE, R175 -/
  | planClose
  /-- PLAN_TIMER_EXPIRY, R175 -/
  | planTimerExpiry
  /-- ANSWER, R188 -/
  | answer
  /-- VALID_FRAME, R180: the bytes of a station link frame. -/
  | validFrame (bytes : Bytes)
  /-- POINT, R182 -/
  | point
  /-- SWEEP_BEGIN, R184 -/
  | sweepBegin
  /-- SWEEP_END, R184 -/
  | sweepEnd
  /-- SWEEP_WAIT_END, R184 -/
  | sweepWaitEnd
  /-- STATION_LINK_SILENCE, R180 -/
  | stationLinkSilence
  /-- STATION_LINK_BREAK, R180 -/
  | stationLinkBreak
  /-- COMMAND_FRAME_SENT, R186 -/
  | commandFrameSent
  /-- WORKSTATION_DIRECTIVE, R187 -/
  | workstationDirective
  /-- PLAN_CLEAR, R187 -/
  | planClear
  /-- PLAN_ENTRY, R187 -/
  | planEntry
  /-- PLAN_SEND, R187 -/
  | planSend
  /-- UNKNOWN_DIRECTIVE, R189 -/
  | unknownDirective
  /-- HOLD_TRAIN, R19 -/
  | holdTrain
  /-- RELEASE_TRAIN, R19 -/
  | releaseTrain
  /-- WITHDRAW_RUN, R20 -/
  | withdrawRun
  /-- INSERT_RUN, R21 -/
  | insertRun
  /-- SET_MODE, R27 -/
  | setMode
  /-- FIELD_QUERY, R190 -/
  | fieldQuery
  /-- DAY_START, R157 -/
  | dayStart
  /-- FRAGMENT, R200: the bytes that arrived before the line fell quiet. -/
  | fragment (cycle : Nat) (bytes : Bytes)
  /-- BRAKE_POINT_FALL, R179 -/
  | brakePointFall (input cycle : Nat)
  deriving DecidableEq, Repr

end Sys2Proof
end

