-- ==== Sys2Proof/Decode.lean ====
section
/-! DEFINITION. Words that spell a command: the table gives no row any bits. -/

namespace Sys2Proof

/-- The command a word spells by the table's bits: none, for every row of spec/opcode_table.json has no bits. -/
def decodeTableWord (_nbits _w : Nat) : Option Instr := none

end Sys2Proof
end

