-- ==== Sys2Proof/Config.lean ====
section
/-! DEFINITION. What an implementation fixes: the configuration image's constants (11.2, Table 12-10), and
the free values. -/

namespace Sys2Proof

/-- FREE VALUE (log 12): the value of a traction constant when the image omits the Traction group (12.4: an
omitted group "configures none of its items", and the manual states no value for it). Index 0 is Sw, 1 is Rc,
2 + c is the demand of power class c. -/
opaque Config.unconfiguredTraction : Nat → Nat

/-- FREE VALUE (log 42): the directive code that the ANSWER to a PLAN_OPEN or PLAN_CLOSE carries; Table 12-7 gives
an ANSWER a directive code, and the manual states none for the plan telegrams. The arguments are the telegram's kind
code and its plan id. -/
opaque Config.planAnswerCode : Nat → Nat → Nat

/-- FREE VALUE (log 42): the serial that such an ANSWER carries. -/
opaque Config.planAnswerSerial : Nat → Nat → Nat

/-- Directions of travel (00 5.3). -/
inductive Dir where
  | up | down
  deriving DecidableEq, Repr

/-- The opposite direction. -/
def Dir.opp : Dir → Dir
  | .up => .down
  | .down => .up

/-- Role of the node (Table 11-2). -/
inductive Role where
  | station | console
  deriving DecidableEq, Repr

/-- Backoff order (Table 9-3). -/
inductive BackoffOrder where
  | priority | rotating
  deriving DecidableEq, Repr

/-- A chainage span, from its from-end to its to-end as configured; either may be the larger (R38). -/
structure Span where
  fromEnd : Nat
  toEnd : Nat
  deriving DecidableEq, Repr

/-- Constants of one platform (Table 1-5). -/
structure PlatformCfg where
  dir : Dir
  turnback : Bool
  /-- onward section id -/
  onward : Nat
  onwardSpan : Span
  point : Nat
  dp : Nat
  dmin : Nat
  hmax : Nat
  wtt : Nat
  dc : Nat
  rw : Nat
  bk : Nat
  approach : Nat
  offset : Nat
  pw : Nat
  deriving DecidableEq, Repr

/-- Constants of one section record (Table 4-1). -/
structure SectionCfg where
  id : Nat
  span : Span
  owner : Bool
  partner : Nat
  imax : Nat
  limit : Nat
  g : Nat
  fz : Nat
  ks : Nat
  rd : Nat
  deriving DecidableEq, Repr

/-- Traction group (Table 11-2). -/
structure TractionCfg where
  /-- demand of power classes 0 to 3 -/
  demand : List Nat
  rc : Nat
  sw : Nat
  deriving DecidableEq, Repr

/-- Incidents group (Table 11-2). -/
structure IncidentCfg where
  lateThreshold : Nat
  alertLevel : Nat
  /-- escalation periods of severities 2 to 6 -/
  periods : List Nat
  deriving DecidableEq, Repr

/-- One entry of the console authority table (10.6), its constants. -/
structure ConsoleCfg where
  node : Nat
  level : Nat
  deriving DecidableEq, Repr

/-- Slot renderings (Table 7-2). -/
inductive Rendering where
  | digits | number | minutes | destination | platform
  deriving DecidableEq, Repr

/-- An element of a template (7.1). -/
inductive Element where
  | phrase (code : Nat)
  | slot (index : Nat) (rendering : Rendering)
  deriving DecidableEq, Repr

/-- Announcement tables (Table 7-1) and the phrase timeout. -/
structure AnnounceCfg where
  templates : List (List Element)
  destPhrases : List Nat
  platPhrases : List Nat
  /-- 0 to 19, the tens 20 to 90, "hundred", minute singular, minute plural -/
  numberPhrases : List Nat
  fallback : Nat
  leadIn : Nat
  srcApproach : Nat
  srcDoor : Nat
  srcHeld : Nat
  srcResume : Nat
  /-- one template number for each incident kind, in the row order of Table 6-2 -/
  srcKind : List Nat
  repeatCount : Nat
  repeatInterval : Nat
  phraseTimeout : Nat
  deriving DecidableEq, Repr

/-- Assignment of a field point (Table 10-3). -/
inductive PointUse where
  | unassigned
  | alarm (platform : Nat)
  | doorFault (platform : Nat)
  | intrusion (zone : Span)
  | breaker (record : Nat)
  deriving DecidableEq, Repr

/-- Assignment of a track input (Table 10-1). -/
inductive TrackUse where
  | unused
  | berth (platform : Nat)
  | brake (platform : Nat)
  deriving DecidableEq, Repr

/-- Configuration of a track input (Table 10-1); the filter time is in 20 ms steps. -/
structure TrackCfg where
  use : TrackUse
  activeLow : Bool
  filter : Nat
  deriving DecidableEq, Repr

/-- The constants of the configuration image (Table 11-2). A group the image omits configures none of its
items (12.4). -/
structure NodeConfig where
  node : Nat
  role : Role
  reference : Bool
  upstreamUp : Nat
  downstreamUp : Nat
  upstreamDown : Nat
  downstreamDown : Nat
  backoff : BackoffOrder
  spanUp : Option Span
  spanDown : Option Span
  platforms : List PlatformCfg
  sections : List SectionCfg
  traction : Option TractionCfg
  incidents : Option IncidentCfg
  consoles : List ConsoleCfg
  announce : AnnounceCfg
  points : List PointUse
  tracks : List TrackCfg
  deriving DecidableEq, Repr

/-- Announcement tables with nothing configured: every template undefined, every phrase 0. -/
def AnnounceCfg.blank : AnnounceCfg :=
  { templates := [], destPhrases := [], platPhrases := [], numberPhrases := [], fallback := 0, leadIn := 0,
    srcApproach := 0, srcDoor := 0, srcHeld := 0, srcResume := 0, srcKind := [], repeatCount := 0,
    repeatInterval := 0, phraseTimeout := 0 }

/-- No constant configured: what the blocks hold in LOADING and CONFIG_FAULT (R192, R197; log 40), and what an omitted
group of an image leaves as it is. The backoff order is then PRIORITY, which 12.4 does not give (DESIGN CHOICE, log 74).
-/
def NodeConfig.blank : NodeConfig :=
  { node := 0, role := .station, reference := false, upstreamUp := 0, downstreamUp := 0, upstreamDown := 0,
    downstreamDown := 0, backoff := .priority, spanUp := none, spanDown := none, platforms := [], sections := [],
    traction := none, incidents := none, consoles := [], announce := .blank, points := [], tracks := [] }

/-- The upstream node of a direction; 0 when none is configured. -/
def NodeConfig.upstream (c : NodeConfig) : Dir → Nat
  | .up => c.upstreamUp
  | .down => c.upstreamDown

/-- The downstream node of a direction; 0 when none is configured. -/
def NodeConfig.downstream (c : NodeConfig) : Dir → Nat
  | .up => c.downstreamUp
  | .down => c.downstreamDown

/-- The approach span of a direction (R62). -/
def NodeConfig.approachSpan (c : NodeConfig) : Dir → Option Span
  | .up => c.spanUp
  | .down => c.spanDown

/-- Start window Sw (R91). -/
def NodeConfig.sw (c : NodeConfig) : Nat :=
  match c.traction with
  | some t => t.sw
  | none => Config.unconfiguredTraction 0

/-- Regen credit Rc (R34). -/
def NodeConfig.rc (c : NodeConfig) : Nat :=
  match c.traction with
  | some t => t.rc
  | none => Config.unconfiguredTraction 1

/-- Demand of a power class (R34). -/
def NodeConfig.demand (c : NodeConfig) (powerClass : Nat) : Nat :=
  match c.traction with
  | some t => t.demand.getD powerClass 0
  | none => Config.unconfiguredTraction (2 + powerClass)

end Sys2Proof
end

