-- ==== Sys2Proof/Machine/State.lean ====
section
/-! DEFINITION. The state of the LSC-2 as plain data: every record, list, counter, mode and pin the manual gives
its twelve blocks, the queue of waiting commands, and the state after reset. -/

namespace Sys2Proof.Machine

open Sys2Proof

/-! ## Names -/

/-- Start states (Table 11-1). -/
inductive StartState where
  | loading | listen | rebuild | running | configFault
  deriving DecidableEq, Repr

/-- Progress of a pending warm start (R196). -/
inductive RestartPhase where
  | idle
  /-- answered DONE; the ANSWER has not yet been sent whole or dropped -/
  | waiting
  /-- the ANSWER has gone: the CFL takes the warm start -/
  | ready
  deriving DecidableEq, Repr

/-- Train states (Table 1-3). -/
inductive TrainState where
  | approaching | dwelling | asking | granted | authorized | held | handing | orphaned | spare
  deriving DecidableEq, Repr

/-- Launch list entry states (Table 1-7). -/
inductive LaunchState where
  | pending | launched | cancelled
  deriving DecidableEq, Repr

/-- What a platform's dwell channel is timing (Table 2-1). -/
inductive ChannelUse where
  | toTr | authWait | cueWait | stopped
  deriving DecidableEq, Repr

/-- Regulation modes (R27). -/
inductive RegMode where
  | timetable | headway | blended
  deriving DecidableEq, Repr

/-- Hold conditions (Table 2-3). -/
inductive HoldCond where
  | consoleHold | withdraw | incident | deadSection | level | link
  deriving DecidableEq, Repr

/-- One side of a renewal state (Table 3-1). -/
inductive SideState where
  | asked | answered | unknown
  deriving DecidableEq, Repr

/-- Phase of a handover context (3.2). -/
inductive HandoverPhase where
  | first | orphanWait | orphanRetry
  deriving DecidableEq, Repr

/-- Orphan reason (3.2). -/
inductive OrphanReason where
  | lost | conflict
  deriving DecidableEq, Repr

/-- Section states (Table 4-3). -/
inductive SectionState where
  | energized | tripped | recloseWait | reclosing | lockedOut | isolated | restoring
  deriving DecidableEq, Repr

/-- Route of an ask (Table 5-3). -/
inductive Route where
  | localRoute | remote | standIn
  deriving DecidableEq, Repr

/-- Phase of an asker record (Table 5-3). -/
inductive AskPhase where
  | idle | queued | waiting | retryWait | holding
  deriving DecidableEq, Repr

/-- Incident kinds (Table 6-2, in row order). -/
inductive IncKind where
  | passengerAlarm | doorFault | trackIntrusion | trainStalled | lateTrain | handoverLost | sequenceGap
  | runConflict | unknownArrival | sectionTrip | sectionLockout | powerOverride | transducerFault
  | stationLinkLost | lineBusFault | timingExhausted | planFault | playerFault | operator
  deriving DecidableEq, Repr

/-- Incident states (Table 6-4); `opened` is OPEN. -/
inductive IncState where
  | opened | acked | standing | cleared
  deriving DecidableEq, Repr

/-- Player link states (Table 7-5). -/
inductive PlayerState where
  | idle | awaitFall | awaitRise | mute
  deriving DecidableEq, Repr

/-- Use of a timing channel (Table 8-1). -/
inductive ChanUse where
  | free | stopped | running
  deriving DecidableEq, Repr

/-- Telegram classes (Table 9-1). -/
inductive TelegramClass where
  | alert | control | bulk
  deriving DecidableEq, Repr

/-- Plan results (Table 9-6). -/
inductive PlanResult where
  | none | inProgress | done | rejected | timedOut
  deriving DecidableEq, Repr

/-- Results of a directive (R190). -/
inductive AnswerResult where
  | done | denied | unknown | refused | busy
  deriving DecidableEq, Repr

/-- Station link states (R180). -/
inductive LinkState where
  | up | lost
  deriving DecidableEq, Repr

/-- Sweep states (Table 10-4). -/
inductive SweepState where
  | idle | asked | sweeping
  deriving DecidableEq, Repr

/-- Reasons of a sweep request (R184). -/
inductive SweepReason where
  | start | restore | overrun
  deriving DecidableEq, Repr

/-! ## Incidents' parts, carried in telegrams and records -/

/-- Incident id: origin node and serial (Table 6-1). -/
structure IncId where
  node : Nat
  serial : Nat
  deriving DecidableEq, Repr

/-- Location parts, each optional (Table 6-1). -/
structure Loc where
  platform : Option Nat
  sec : Option Nat
  run : Option Nat
  point : Option Nat
  deriving DecidableEq, Repr

/-- Effects of an incident (Table 6-1). -/
structure Effects where
  hold : Bool
  cut : Bool
  announce : Bool
  deriving DecidableEq, Repr

/-! ## Telegrams (9.1, 12.2) -/

/-- A next-handover prediction (R46). -/
structure Prediction where
  run : Nat
  origin : Nat
  departure : Nat
  deriving DecidableEq, Repr

/-- The part of a STATUS for one direction (Table 12-3). -/
structure StatusDir where
  lastSend : Option Nat
  lastExpected : Option Nat
  prediction : Option Prediction
  deriving DecidableEq, Repr

/-- A section entry of a STATUS (R74). -/
structure SectionEntry where
  id : Nat
  stale : Bool
  im : Option Nat
  state : Option SectionState
  deriving DecidableEq, Repr

/-- STATUS (Table 12-3); `clock` is absent when the clock-valid bit is clear. -/
structure StatusBody where
  clock : Option Nat
  overrun : Bool
  console : Bool
  level : Nat
  up : StatusDir
  down : StatusDir
  plan : PlanResult
  drops : Nat
  discards : Nat
  overruns : Nat
  annDropped : Nat
  muted : Nat
  sections : List SectionEntry
  deriving DecidableEq, Repr

/-- The record as a HANDOVER carries it (R50). -/
structure Carried where
  run : Nat
  dir : Dir
  origin : Nat
  dest : Nat
  pclass : Nat
  lateness : Option Int
  consoleHold : Bool
  withdraw : Bool
  departedWithout : Bool
  incRef : Option IncId
  deriving DecidableEq, Repr

/-- A sent-history entry: the record as the taken-over HANDOVER carried it, with its sequence (3.1). -/
structure SentEntry where
  carried : Carried
  seq : Nat
  deriving DecidableEq, Repr

/-- A received-history entry (3.1). -/
structure RecvEntry where
  run : Nat
  seq : Nat
  deriving DecidableEq, Repr

/-- INCIDENT (Table 12-5). -/
structure IncidentBody where
  id : IncId
  kind : IncKind
  severity : Nat
  state : IncState
  loc : Loc
  effects : Effects
  cover : Option Span
  raised : Option Nat
  ackBy : Option Nat
  deriving DecidableEq, Repr

/-- POWER_ASK (Table 12-6). -/
structure PowerAskBody where
  sec : Nat
  platform : Nat
  serial : Nat
  ready : Option Nat
  overrideFlag : Bool
  demand : Nat
  credit : Nat
  deriving DecidableEq, Repr

/-- A plan entry of a PLAN_BLOCK (12.2); also a launch list entry without its state. -/
structure PlanEntry where
  run : Nat
  platform : Nat
  departure : Nat
  dest : Nat
  pclass : Nat
  deriving DecidableEq, Repr

/-- Parameters of ANNOUNCE (Table 12-8). `zones` has platforms in bits 0 to 3 and the concourse in bit 4. -/
structure AnnounceArgs where
  template : Nat
  priority : Nat
  zones : BitVec 5
  slots : List Nat
  repeatCount : Nat
  interval : Nat
  deriving DecidableEq, Repr

/-- Parameters of DECLARE_INCIDENT (Table 12-8). -/
structure DeclareArgs where
  severity : Nat
  effects : Effects
  loc : Loc
  /-- absent when the directive carries no cover -/
  cover : Option Span
  deriving DecidableEq, Repr

/-- Parameters of INSERT_RUN (Table 12-8). -/
structure InsertArgs where
  run : Nat
  dir : Dir
  origin : Nat
  dest : Nat
  pclass : Nat
  platform : Option Nat
  deriving DecidableEq, Repr

/-- Directives (Table 12-8). -/
inductive Directive where
  | ackIncident (id : IncId)
  | holdTrain (run : Nat) (platform : Option Nat)
  | releaseTrain (run : Nat) (platform : Option Nat)
  | announce (a : AnnounceArgs)
  | cancelAnnounce (template : Nat) (slots : List Nat) (zones : BitVec 5)
  | declareIncident (d : DeclareArgs)
  | fieldQuery
  | clearIncident (id : IncId)
  | withdrawRun (run : Nat) (platform : Option Nat)
  | insertRun (a : InsertArgs)
  | setMode (mode : Nat) (platform : Option Nat)
  | isolateSection (id : Nat)
  | restoreSection (id : Nat)
  | clearOverflow
  | dayStart (time : Nat)
  | restartNode
  | unknown (code : Nat) (params : Bytes)
  deriving DecidableEq, Repr

/-- One point of the field image: its last value, if any, and its stale flag (10.3). -/
structure PointVal where
  value : Option Nat
  stale : Bool
  deriving DecidableEq, Repr

/-- ANSWER (Table 12-7). -/
structure AnswerBody where
  code : Nat
  serial : Nat
  result : AnswerResult
  /-- the 64 points, for FIELD_QUERY answered DONE -/
  points : Option (List PointVal)
  deriving DecidableEq, Repr

/-- The content of a RENEW_REPLY (R65). -/
inductive RenewContent where
  | sent (entries : List SentEntry)
  | received (entries : List RecvEntry)
  deriving DecidableEq, Repr

/-- A telegram's kind and body (Table 9-1, 12.2). -/
inductive Body where
  | incident (b : IncidentBody)
  | powerAsk (b : PowerAskBody)
  | powerGrant (sec platform serial : Nat)
  | powerDefer (sec platform serial : Nat) (full : Bool)
  | powerReturn (sec platform serial : Nat)
  | status (b : StatusBody)
  | handover (b : SentEntry)
  | takeover (run : Nat) (dir : Dir) (seq : Nat)
  | refusal (run : Nat) (dir : Dir) (seq : Nat) (duplicate : Bool)
  | renewAsk (dir : Dir)
  | renewReply (dir : Dir) (counter : Option Nat) (content : RenewContent)
  | directive (serial : Nat) (d : Directive)
  | answer (b : AnswerBody)
  | planOpen (id blocks remainder : Nat)
  | planClose (id total : Nat)
  | planBlock (id index : Nat) (entries : List PlanEntry)
  deriving DecidableEq, Repr

/-- A telegram; target 0 is broadcast (9.1). -/
structure Telegram where
  sender : Nat
  target : Nat
  body : Body
  deriving DecidableEq, Repr

/-! ## Timers (8.2 to 8.4) -/

/-- Who receives a timer's events (Table 8-1, Table 8-3). -/
inductive TimerOwner where
  | dwell (platform : Nat)
  | statusPeriod
  | powerWait (platform : Nat)
  | handoverRetry (tag : Nat)
  | stallWatch (tag : Nat)
  | rebuild
  | sectionTimer (record : Nat)
  | escalation (serial : Nat)
  | wake
  | player
  | plan
  deriving DecidableEq, Repr

/-- Where a granted timer is kept. -/
inductive TimerSlot where
  | chan (index : Nat)
  | coarse (place : Nat)
  deriving DecidableEq, Repr

/-- A timer handle: channel or coarse place, with the grant tag given (8.2). -/
structure Handle where
  slot : TimerSlot
  tag : Nat
  deriving DecidableEq, Repr

/-- One timing channel (Table 8-1). `markDue` and `expiryDue` say that a tick has brought the mark or the
expiry and its event has not been taken yet (log 8). -/
structure Channel where
  use : ChanUse
  count : Nat
  reload : Nat
  mark : Option Nat
  periodic : Bool
  owner : Option TimerOwner
  tag : Nat
  partner : Option Nat
  markDue : Bool
  expiryDue : Bool
  deriving DecidableEq, Repr

/-- One place of the coarse list (R154). -/
structure CoarsePlace where
  occupied : Bool
  deadline : Nat
  paused : Bool
  remaining : Nat
  owner : Option TimerOwner
  tag : Nat
  due : Bool
  deriving DecidableEq, Repr

/-- A trim offset kept for a trim neighbour (R158). -/
structure TrimOffset where
  node : Nat
  offset : Int
  takenAt : Nat
  deriving DecidableEq, Repr

/-- Timing Unit (08). -/
structure Tiu where
  chans : List Channel
  coarse : List CoarsePlace
  /-- a refusal has been made and no pool channel released since (R155) -/
  refused : Bool
  /-- service clock; absent is UNSET (R156) -/
  clock : Option Nat
  overrun : Bool
  offsets : List TrimOffset
  /-- the trim moment of R159 has come at a tick and has not been taken -/
  trimDue : Bool
  deriving DecidableEq, Repr

/-! ## Train Table Unit (01) -/

/-- A train record (Table 1-2). -/
structure TrainRec where
  run : Nat
  dir : Dir
  state : TrainState
  origin : Nat
  dest : Nat
  pclass : Nat
  lateness : Option Int
  recvSeq : Option Nat
  aa : Option Nat
  tr : Option Nat
  grantTime : Option Nat
  platform : Option Nat
  consoleHold : Bool
  announcedApproach : Bool
  announcedHeld : Bool
  regenMatched : Bool
  departedWithout : Bool
  withdraw : Bool
  incRef : Option IncId
  tag : Nat
  /-- converted by turnback conversion, which R8 reads -/
  converted : Bool
  deriving DecidableEq, Repr

/-- Dynamic fields of a platform record (Table 1-6). -/
structure PlatDyn where
  occupied : Bool
  since : Option Nat
  occupant : Option Nat
  aprev : Option Nat
  pdPrev : Option Nat
  deriving DecidableEq, Repr

/-- A launch list entry (Table 1-7). -/
structure LaunchEntry where
  plan : PlanEntry
  state : LaunchState
  deriving DecidableEq, Repr

/-- Train Table Unit. `table` is in order of creation. In CONSOLE role `launch` is the outgoing plan buffer (R15). -/
structure Ttu where
  table : List TrainRec
  tagCtr : Nat
  plats : List PlatDyn
  launch : List LaunchEntry
  staging : List PlanEntry
  overfull : Bool
  invalid : Bool
  deriving DecidableEq, Repr

/-! ## Regulation Engine (02) -/

/-- Departure context of a platform (Table 2-1); active when it holds a record tag. -/
structure Ctx where
  tag : Option Nat
  tr : Option Nat
  use : ChannelUse
  markPassed : Bool
  targetReached : Bool
  serial : Nat
  outstanding : Bool
  grantHeld : Bool
  powerWait : Option Handle
  holdSet : List HoldCond
  heldFromAuth : Bool
  latestBrake : Option Nat
  deriving DecidableEq, Repr

/-- Regulation Engine. -/
structure Rge where
  ctxs : List Ctx
  modes : List RegMode
  deriving DecidableEq, Repr

/-! ## Handover Engine (03) -/

/-- Handover state of one direction (Table 3-1), with the replies kept until the rebuild is complete (R66). -/
structure HoeDir where
  sendCtr : Option Nat
  lastTaken : Option Nat
  expected : Option Nat
  sent : List SentEntry
  received : List RecvEntry
  upSide : SideState
  downSide : SideState
  upReply : List SentEntry
  downReply : List RecvEntry
  /-- a HANDOVER of this direction has been accepted since the entry to REBUILD (R66) -/
  accepted : Bool
  deriving DecidableEq, Repr

/-- Handover context of a record in HANDING or ORPHANED (3.2); `carried` is the record as its last HANDOVER
carried it (R52). -/
structure HandoverCtx where
  tag : Nat
  seq : Nat
  attempts : Nat
  timer : Option Handle
  phase : HandoverPhase
  reason : Option OrphanReason
  carried : Carried
  deriving DecidableEq, Repr

/-- Stall watch of an APPROACHING record (3.4). -/
structure StallWatch where
  tag : Nat
  dir : Dir
  timer : Handle
  paused : Bool
  deriving DecidableEq, Repr

/-- Handover Engine. -/
structure Hoe where
  up : HoeDir
  down : HoeDir
  ctxs : List HandoverCtx
  watches : List StallWatch
  rebuildTimer : Option Handle
  /-- status periods still to come before the rebuild timer's fallback (R64) -/
  rebuildFallback : Option Nat
  deriving DecidableEq, Repr

/-! ## Section Monitor (04) -/

/-- Dynamic fields of a section record and its ratio converter (Table 4-1, R70). -/
structure SecDyn where
  /-- absent is "not held" -/
  state : Option SectionState
  im : Option Nat
  stale : Bool
  bad : Nat
  good : Nat
  fault : Bool
  attempts : List Nat
  resent : Bool
  timer : Option Handle
  /-- reference moment at which the present gate started; absent while the converter is idle -/
  gateStart : Option Nat
  /-- N of the present gate -/
  gateCount : Nat
  deriving DecidableEq, Repr

/-! ## Start Arbiter (05) -/

/-- A counted start (Table 5-2). -/
structure Counted where
  node : Nat
  platform : Nat
  serial : Nat
  demand : Nat
  endTime : Nat
  deriving DecidableEq, Repr

/-- A queued ask (5.1). `heard` is present for an ask from the sharing node. -/
structure QueuedAsk where
  node : Nat
  platform : Nat
  serial : Nat
  ready : Option Nat
  demand : Nat
  credit : Nat
  overrideFlag : Bool
  heard : Option Nat
  deriving DecidableEq, Repr

/-- A taken-start entry (5.1); `origin` says which arbiter's grant it records, REMOTE or STAND_IN (R100, R106). -/
structure Taken where
  platform : Nat
  serial : Nat
  demand : Nat
  takenAt : Nat
  origin : Route
  deriving DecidableEq, Repr

/-- Arbiter records of one section record, owned or in stand-in, and its taken-start list (5.1, 5.9). -/
structure Arb where
  counted : List Counted
  queue : List QueuedAsk
  /-- stand-in ACTIVE (used where the owner flag is clear) -/
  standIn : Bool
  taken : List Taken
  deriving DecidableEq, Repr

/-- Asker record of one platform (Table 5-3); `deferred` says a POWER_DEFER came in the present wait (R99). -/
structure Asker where
  sec : Nat
  route : Route
  phase : AskPhase
  serial : Nat
  ready : Option Nat
  demand : Nat
  credit : Nat
  overrideFlag : Bool
  waitEnd : Option Nat
  origin : Option Route
  deferred : Bool
  deriving DecidableEq, Repr

/-- Start Arbiter. -/
structure Sar where
  arbs : List Arb
  askers : List Asker
  deriving DecidableEq, Repr

/-! ## Incident Unit (06) -/

/-- An incident entry (Table 6-1). -/
structure Incident where
  id : IncId
  kind : IncKind
  severity : Nat
  state : IncState
  loc : Loc
  cover : Option Span
  effects : Effects
  raised : Option Nat
  ackBy : Option Nat
  own : Bool
  admittedAt : Nat
  clearedAt : Option Nat
  timer : Option Handle
  refreshDue : Option Nat
  lastHeard : Option Nat
  deriving DecidableEq, Repr

/-- Incident Unit; `dirty` holds the own ids whose INCIDENT is due at the end of the event (R128). -/
structure Inu where
  table : List Incident
  serial : Nat
  floor : Nat
  level : Nat
  dirty : List IncId
  deriving DecidableEq, Repr

/-! ## Announcement Unit (07) -/

/-- A source pair: its kind and reference (Table 7-3). -/
inductive Source where
  | train (run : Nat)
  | hold (run : Nat)
  | incident (id : Option IncId)
  | console (node : Nat)
  deriving DecidableEq, Repr

/-- A request record (Table 7-3). -/
structure Request where
  num : Nat
  template : Nat
  priority : Nat
  zones : BitVec 5
  slots : List Nat
  repeatCount : Nat
  interval : Nat
  notBefore : Option Nat
  waiting : Bool
  sources : List Source
  time : Nat
  /-- order in which requests joined the queue, read among equal request times (R133) -/
  joined : Nat
  cursor : Nat
  leadIn : Bool
  stopping : Bool
  deriving DecidableEq, Repr

/-- A phrase of the player FIFO with its tags (7.5). -/
structure Phrase where
  code : Nat
  num : Nat
  element : Nat
  place : Nat
  deriving DecidableEq, Repr

/-- Indication of a display entry (Table 7-6). -/
inductive Indication where
  | minutes (n : Nat)
  | due
  | held
  deriving DecidableEq, Repr

/-- A display entry (Table 7-6). -/
structure LineEntry where
  run : Nat
  dest : Option Nat
  indication : Indication
  deriving DecidableEq, Repr

/-- Announcement Unit; `lastLines` holds for each platform the line last sent, absent for "none" (R145). -/
structure Anu where
  queue : List Request
  stack : List Request
  playing : Option Request
  fifo : List Phrase
  outstanding : Option Phrase
  numCtr : Nat
  /-- requests that have joined the queue so far: gives `Request.joined` -/
  joins : Nat
  wake : Option Handle
  /-- the not-before that the wake timer times (R138) -/
  wakeAt : Option Nat
  playerTimer : Option Handle
  /-- the phrase waited for was refused its player timer, and is waited for with none (R142) -/
  untimed : Bool
  player : PlayerState
  lastLines : List (Option (List LineEntry))
  dropped : Nat
  muted : Nat
  deriving DecidableEq, Repr

/-! ## Line Bus Controller (09) -/

/-- What else depends on a telegram's or frame's fate: the ANSWER of a RESTART_NODE (R196), a telegram of a plan
being sent (R176). -/
inductive TxNote where
  | none | restart | plan
  deriving DecidableEq, Repr

/-- A telegram in a transmit queue. `attempts` is R164's attempt count, 0 before the first start. -/
structure TxItem where
  tg : Telegram
  attempts : Nat
  backoff : Bool
  /-- the probe STATUS of R166 -/
  probe : Bool
  note : TxNote
  deriving DecidableEq, Repr

/-- A watched node's presence and latest STATUS (R168, R170). -/
structure Watched where
  node : Nat
  present : Bool
  lastHeard : Option Nat
  latest : Option (Nat × StatusBody)
  deriving DecidableEq, Repr

/-- The plan transfer in progress (9.7). -/
structure Transfer where
  console : Nat
  planId : Nat
  blocks : Nat
  remainder : Nat
  nextIndex : Nat
  received : Nat
  timer : Option Handle
  deriving DecidableEq, Repr

/-- The telegram of a plan that a console node has handed and not yet sent whole (R176). -/
inductive PlanStage where
  | opening
  | block (index : Nat)
  | closing
  deriving DecidableEq, Repr

/-- The plan a console node is sending (R176). -/
structure OutPlan where
  target : Nat
  planId : Nat
  stage : PlanStage
  deriving DecidableEq, Repr

/-- A telegram in the receive queue: its bytes as they came, whole (R188), and the running time and service time of its
reception (R158, R168). -/
structure Received where
  tg : Telegram
  bytes : Bytes
  time : Nat
  stamp : Option Nat
  deriving DecidableEq, Repr

/-- Line Bus Controller. -/
structure Lbc where
  alertQ : List TxItem
  controlQ : List TxItem
  bulkQ : List TxItem
  /-- the class whose head is being sent, and whether the echo of its first bit has been seen -/
  sending : Option (TelegramClass × Bool)
  /-- reference moment of the latest start (R166) -/
  startedAt : Nat
  echoFaults : Nat
  mute : Bool
  mutePeriods : Nat
  dropTimes : List Nat
  faultPresent : Bool
  rx : List Received
  watched : List Watched
  drops : Nat
  discards : Nat
  overruns : Nat
  transfer : Option Transfer
  planResult : PlanResult
  outPlan : Option OutPlan
  /-- reference moment at which the line last carried a bit -/
  lastBit : Nat
  /-- reference moment at which this node's previous PLAN_BLOCK ended (R163) -/
  lastBlockEnd : Option Nat
  deriving DecidableEq, Repr

/-! ## Station Link Controller and Directive Checker (10) -/

/-- A candidate of a track filter (R178): its level, the moment it began and its time stamp. -/
structure Candidate where
  active : Bool
  began : Nat
  stamp : Option Nat
  deriving DecidableEq, Repr

/-- A track input's filter (10.1). -/
structure TrackDyn where
  /-- accepted level, ACTIVE when true; absent before the first level -/
  accepted : Option Bool
  candidate : Option Candidate
  firstMark : Bool
  deriving DecidableEq, Repr

/-- Reports that join the report FIFO (Table 10-2, R187). -/
inductive Report where
  | point (number value : Nat)
  | sweepBegin
  | sweepEnd
  | directive (target serial : Nat) (d : Directive)
  | planClear
  | planEntry (e : PlanEntry)
  | planSend (target planId : Nat)
  deriving DecidableEq, Repr

/-- What a VIEW carries (Table 12-9): the bytes of a forwarded telegram, or an order's local result. -/
inductive ViewContent where
  | telegram (bytes : Bytes)
  | result (order : Nat) (r : AnswerResult)
  deriving DecidableEq, Repr

/-- Field commands (Table 10-5). -/
inductive FieldCmd where
  | authority (platform : Nat) (on : Bool)
  | breaker (sec : Nat) (close : Bool)
  | sweepAsk (reason : SweepReason) (lost : Nat)
  | display (platform : Nat) (line : List LineEntry)
  | view (viewsLost lostReports : Nat) (content : ViewContent)
  deriving DecidableEq, Repr

/-- A command in the command FIFO. -/
structure CmdItem where
  cmd : FieldCmd
  note : TxNote
  deriving DecidableEq, Repr

/-- Station Link Controller. The head of `cmds` is the command being sent (R186). -/
structure Slc where
  tracks : List TrackDyn
  /-- the filters run (from the entry to LISTEN, R179) -/
  filtersOn : Bool
  link : LinkState
  lastValid : Nat
  image : List PointVal
  reports : List Report
  cmds : List CmdItem
  held : List FieldCmd
  lostReports : Nat
  viewsLost : Nat
  sweep : SweepState
  again : Bool
  /-- reason of the latest sweep request, which a SWEEP_ASK carries (R184) -/
  reason : SweepReason
  waitEnd : Option Nat
  deriving DecidableEq, Repr

/-- Directive Checker: last-answer record of each authority table entry (10.6). -/
structure Dck where
  lastAnswers : List (Option AnswerBody)
  deriving DecidableEq, Repr

/-! ## Start-up and pins (11) -/

/-- Configuration Loader. -/
structure Cfl where
  start : StartState
  listenAt : Option Nat
  restart : RestartPhase
  deriving DecidableEq, Repr

/-- Pins (Table 11-4); BUS_TX and SL_TX are derived from the queue heads. -/
structure Pins where
  /-- RESET is held low -/
  resetLow : Bool
  fault : Bool
  alert : Bool
  busDe : Bool
  cfgCs : Bool
  /-- PL_READY is high -/
  ready : Bool
  /-- electrical levels of TRK0 to TRK7 -/
  trk : List Bool
  /-- bytes of the PLAY frame last sent on PL_TX -/
  plTx : Bytes
  deriving DecidableEq, Repr

/-! ## Requests between blocks (00 2, R4; log 9) -/

/-- A raise (R112): what its raiser does not state is absent. -/
structure Raise where
  kind : IncKind
  loc : Loc
  cover : Option (Option Span)
  severity : Option Nat
  effects : Option Effects
  deriving DecidableEq, Repr

/-- The flag the ANU asks the TTU to set when it admits a train request (R134). -/
inductive AnnouncedFlag where
  | approach | held
  deriving DecidableEq, Repr

/-- A request to the ANU (R131). -/
structure AnnReq where
  template : Nat
  priority : Nat
  zones : BitVec 5
  slots : List Nat
  repeatCount : Nat
  interval : Nat
  source : Source
  flag : Option (Nat × AnnouncedFlag)
  deriving DecidableEq, Repr

/-- A request or notification from one block to another, within an event. -/
inductive Msg where
  /-- to the INU (R112) -/
  | raise (r : Raise)
  /-- to the INU (R114) -/
  | condEnd (kind : IncKind) (loc : Loc)
  /-- in the INU: recompute the operating level (R126) -/
  | levelCheck
  /-- from the INU: the set of acting entries, or a cover or effect in it, changed (R125) -/
  | actingChanged
  /-- to the RGE: recompute the hold sets (R38) -/
  | holdRecompute
  /-- to the RGE: begin the departure computation (R23) -/
  | compute (platform tag : Nat)
  /-- from the SCM: a section's state changed (R86) -/
  | sectionChanged (record : Nat)
  /-- to the RGE: GRANT with its serial; origin and section of the grant (R36) -/
  | grant (platform serial : Nat) (origin : Route) (sec : Nat)
  /-- to the RGE: DEFER (R35) -/
  | defer (platform serial : Nat)
  /-- from the TTU: the record, which carried the run, is gone (R3) -/
  | tagGone (tag run : Nat)
  /-- from the TTU to the HOE: a record entered HANDING from a berthed state (R50) -/
  | enteredHanding (tag : Nat)
  /-- from the TTU to the HOE: a record took a berth, with the run it arrived with (R61, R63) -/
  | tookBerth (tag run : Nat)
  /-- to the ANU (R131) -/
  | announce (r : AnnReq)
  /-- to the ANU: cancellation by source pair, and by template for a door cue (R135) -/
  | cancelSource (source : Source) (template : Option Nat)
  /-- in the ANU: the selection (R137) -/
  | select
  /-- in the ANU: drive the player link (R142) -/
  | pump
  /-- in the ANU: the phrase boundary (R140) -/
  | boundary
  /-- in the HOE: is the rebuild complete (R64) -/
  | rebuildCheck
  /-- from the TIU to a timer's owner: an expiry given in the event that made a load of 0 (R150) -/
  | timerExpired (owner : TimerOwner)
  deriving DecidableEq, Repr

/-! ## The state -/

/-- The state of the LSC-2. -/
structure State where
  cfg : NodeConfig
  cfl : Cfl
  ttu : Ttu
  rge : Rge
  hoe : Hoe
  secs : List SecDyn
  sar : Sar
  inu : Inu
  anu : Anu
  tiu : Tiu
  lbc : Lbc
  slc : Slc
  dck : Dck
  pins : Pins
  /-- running time in ds (4.5) -/
  runTime : Nat
  /-- REFCLK cycles since power-on; the time-base divider is its remainder by 100,000 (R148) -/
  refMoment : Nat
  /-- requests between blocks still to be taken in this event (log 9) -/
  work : List Msg
  /-- commands waiting, first in first out -/
  pending : List Instr
  deriving DecidableEq, Repr

/-- What stops the machine with a fault: nothing. No event of the manual stops the part; CONFIG_FAULT (R197) and
MUTE (R143, R166) are states. Closed, with no constructor: nobody raises one. -/
inductive Fault where
  deriving DecidableEq, Repr

/-- Refusals. -/
inductive Refusal where
  /-- raised by `exec` for a command that has no meaning yet (safe); no arm raises it now -/
  | notModelled (mnemonic : String)
  deriving DecidableEq, Repr

/-! ## Cold-start values -/

/-- A bound channel after a start: STOPPED, count 0 (R160). Table 8-4 gives nothing more of it: reload value 0, ONE_SHOT,
no mark, no owner and grant tag 0 are the model's (DESIGN CHOICE, log 62). -/
def Channel.bound : Channel :=
  { use := .stopped, count := 0, reload := 0, mark := none, periodic := false, owner := none, tag := 0,
    partner := none, markDue := false, expiryDue := false }

/-- A pool channel after a start: FREE, grant tag 0 (R160). Table 8-4 gives nothing more of it: count 0, reload value
0, ONE_SHOT, no mark and no owner are the model's (DESIGN CHOICE, log 62). -/
def Channel.poolFree : Channel := { Channel.bound with use := .free }

/-- An empty coarse place after a start, with its grant tag (R160). What deadline, remaining time, state and owner an
empty place holds is the model's: 0, 0, not paused, none (DESIGN CHOICE, log 62). -/
def CoarsePlace.empty : CoarsePlace :=
  { occupied := false, deadline := 0, paused := false, remaining := 0, owner := none, tag := 0, due := false }

/-- The TIU after a cold start (R160). -/
def Tiu.cold : Tiu :=
  { chans := List.replicate 5 .bound ++ List.replicate 19 .poolFree, coarse := List.replicate 16 .empty,
    refused := false, clock := none, overrun := false, offsets := [], trimDue := false }

/-- Platform dynamic fields after a start (Table 1-6). -/
def PlatDyn.cold : PlatDyn :=
  { occupied := false, since := none, occupant := none, aprev := none, pdPrev := none }

/-- The TTU after a cold start (R22). -/
def Ttu.cold : Ttu :=
  { table := [], tagCtr := 0, plats := List.replicate 4 .cold, launch := [], staging := [], overfull := false,
    invalid := false }

/-- An idle departure context after a start (R23). -/
def Ctx.cold : Ctx :=
  { tag := none, tr := none, use := .stopped, markPassed := false, targetReached := false, serial := 0,
    outstanding := false, grantHeld := false, powerWait := none, holdSet := [], heldFromAuth := false,
    latestBrake := none }

/-- The RGE after a start (R23, R27). -/
def Rge.cold : Rge := { ctxs := List.replicate 4 .cold, modes := List.replicate 4 .blended }

/-- Handover state of a direction after a start (R47). -/
def HoeDir.cold : HoeDir :=
  { sendCtr := none, lastTaken := none, expected := none, sent := [], received := [], upSide := .asked,
    downSide := .asked, upReply := [], downReply := [], accepted := false }

/-- The HOE after a start (R47). -/
def Hoe.cold : Hoe :=
  { up := .cold, down := .cold, ctxs := [], watches := [], rebuildTimer := none, rebuildFallback := none }

/-- A section record after a start (R89). -/
def SecDyn.cold : SecDyn :=
  { state := none, im := none, stale := true, bad := 0, good := 0, fault := false, attempts := [],
    resent := false, timer := none, gateStart := none, gateCount := 0 }

/-- Arbiter records after a start: lists empty, stand-in ACTIVE (R108). -/
def Arb.cold : Arb := { counted := [], queue := [], standIn := true, taken := [] }

/-- An IDLE asker record (R108). R108 gives the phase alone; what an IDLE record holds in its other fields is the
model's choice: section id 0, route LOCAL, serial, demand and credit 0, the override flag clear (DESIGN CHOICE, log 44).
-/
def Asker.cold : Asker :=
  { sec := 0, route := .localRoute, phase := .idle, serial := 0, ready := none, demand := 0, credit := 0,
    overrideFlag := false, waitEnd := none, origin := none, deferred := false }

/-- The SAR after a start (R108). -/
def Sar.cold : Sar := { arbs := List.replicate 4 .cold, askers := List.replicate 4 .cold }

/-- The INU after a cold start (R129). -/
def Inu.cold : Inu := { table := [], serial := 1, floor := 0, level := 0, dirty := [] }

/-- The ANU after a start (R147). -/
def Anu.cold : Anu :=
  { queue := [], stack := [], playing := none, fifo := [], outstanding := none, numCtr := 0, joins := 0, wake := none,
    wakeAt := none, playerTimer := none, untimed := false, player := .idle, lastLines := List.replicate 4 none, dropped := 0,
    muted := 0 }

/-- The LBC after a start (R177). -/
def Lbc.cold : Lbc :=
  { alertQ := [], controlQ := [], bulkQ := [], sending := none, startedAt := 0, echoFaults := 0, mute := false,
    mutePeriods := 0, dropTimes := [], faultPresent := false, rx := [], watched := [], drops := 0, discards := 0, overruns := 0,
    transfer := none, planResult := .none, outPlan := none, lastBit := 0, lastBlockEnd := none }

/-- A track filter before the entry to LISTEN (R191). -/
def TrackDyn.cold : TrackDyn := { accepted := none, candidate := none, firstMark := true }

/-- A field image of which every point is none and stale (R191, R190). -/
def noPoints : List PointVal := List.replicate 64 { value := none, stale := true }

/-- The SLC after a cold start (R191). -/
def Slc.cold : Slc :=
  { tracks := List.replicate 8 .cold, filtersOn := false, link := .up, lastValid := 0,
    image := noPoints, reports := [], cmds := [], held := [],
    lostReports := 0, viewsLost := 0, sweep := .idle, again := false, reason := .start,
    waitEnd := none }

/-- The DCK after a cold start (R191). -/
def Dck.cold : Dck := { lastAnswers := List.replicate 4 none }

/-- The CFL at the beginning of LOADING (R193). -/
def Cfl.cold : Cfl := { start := .loading, listenAt := none, restart := .idle }

/-- The pins right after reset: FAULT, ALERT and BUS_DE deasserted, CFG_CS active in LOADING (R198); the levels
the surroundings drive are low (DESIGN CHOICE, log 4). -/
def Pins.cold : Pins :=
  { resetLow := false, fault := false, alert := false, busDe := false, cfgCs := true, ready := false,
    trk := List.replicate 8 false, plTx := [] }

/-- The part right after RESET is released: every block in its cold-start state at the beginning of LOADING
(R193; log 3). -/
def State.reset : State :=
  { cfg := .blank, cfl := .cold, ttu := .cold, rge := .cold, hoe := .cold, secs := List.replicate 4 .cold,
    sar := .cold, inu := .cold, anu := .cold, tiu := .cold, lbc := .cold, slc := .cold, dck := .cold,
    pins := .cold, runTime := 0, refMoment := 0, work := [], pending := [] }

end Sys2Proof.Machine
end

