-- ==== Sys2Proof/Machine/Flags.lean ====
section
/-! DEFINITION. The manual's arithmetic: rounding, saturation, counters that wrap, sequence order, chainage spans,
names of states. -/

namespace Sys2Proof.Machine

open Sys2Proof

/-! ## Counts and sequences -/

/-- A counter of 8 bits steps, wrapping from 255 to 0 (R34, R48, R149). -/
def wrap8 (n : Nat) : Nat := n % 256

/-- A count from 0 to 65,535 steps, stopping at 65,535 (R146, R172, R183). -/
def stepCount (n : Nat) : Nat := min 65535 (n + 1)

/-- A count from 0 to 65,535 grows by k, stopping at 65,535. -/
def addCount (n k : Nat) : Nat := min 65535 (n + k)

/-- Greatest running time (4.5). -/
abbrev runTimeMax : Nat := 4294967295

/-- Sequence b is newer than sequence a: (b − a) mod 256 lies from 1 to 127 (R48, R10). -/
def seqNewer (a b : Nat) : Bool :=
  let d := (b % 256 + 256 - a % 256) % 256
  decide (1 ≤ d ∧ d ≤ 127)

/-! ## Service times and lateness (R11, R32) -/

/-- Greatest service time (00 5.1). -/
abbrev serviceMax : Nat := 1079999

/-- A difference in ds divided by 10, rounded half away from zero. -/
def roundTenth (d : Int) : Int := if 0 ≤ d then (d + 5) / 10 else -((-d + 5) / 10)

/-- Saturation to −999 to +999. -/
def saturate999 (x : Int) : Int := max (-999) (min 999 x)

/-- The lateness in whole seconds of a difference in ds (R32). -/
def latenessOf (d : Int) : Int := saturate999 (roundTenth d)

/-- Clamped to [a, b] (00 5.2). -/
def clampInt (a b x : Int) : Int := if x < a then a else if b < x then b else x

/-- ceil(n / d). -/
def ceilDiv (n d : Nat) : Nat := (n + d - 1) / d

/-! ## Spans (R38) -/

/-- Smaller end of a span. -/
def spanLo (x : Span) : Nat := min x.fromEnd x.toEnd

/-- Larger end of a span. -/
def spanHi (x : Span) : Nat := max x.fromEnd x.toEnd

/-- Some point lies within both, ends included, each span read from its smaller end to its larger (R38). -/
def spanOverlaps (x y : Span) : Bool := decide (spanLo x ≤ spanHi y ∧ spanLo y ≤ spanHi x)

/-- A point lies within a span, ends included. -/
def spanHas (x : Span) (pt : Nat) : Bool := decide (spanLo x ≤ pt ∧ pt ≤ spanHi x)

/-- A cover, possibly empty, overlaps a span; an empty cover overlaps nothing (R110). -/
def coverOverlaps (c : Option Span) (y : Span) : Bool :=
  match c with
  | some x => spanOverlaps x y
  | none => false

/-- A cover, possibly empty, contains a point. -/
def coverHas (c : Option Span) (pt : Nat) : Bool :=
  match c with
  | some x => spanHas x pt
  | none => false

/-! ## States -/

/-- The berthed states (Table 1-3). -/
def TrainState.berthed : TrainState → Bool
  | .dwelling | .asking | .granted | .authorized | .held | .spare => true
  | .approaching | .handing | .orphaned => false

/-- The states in which a departure context is active (2.1). -/
def TrainState.regulated : TrainState → Bool
  | .dwelling | .asking | .granted | .authorized | .held => true
  | .approaching | .handing | .orphaned | .spare => false

/-- The effects of an incident act in OPEN and ACKED (Table 6-4). -/
def IncState.acts : IncState → Bool
  | .opened | .acked => true
  | .standing | .cleared => false

/-- The no-effect set. -/
def Effects.none : Effects := { hold := false, cut := false, announce := false }

/-- Union of two sets of effects. -/
def Effects.union (a b : Effects) : Effects :=
  { hold := a.hold || b.hold, cut := a.cut || b.cut, announce := a.announce || b.announce }

/-- A location with no part. -/
def Loc.none : Loc := { platform := .none, sec := .none, run := .none, point := .none }

/-- A location holding a run alone. -/
def Loc.ofRun (r : Nat) : Loc := { Loc.none with run := some r }

/-- A location holding a section alone. -/
def Loc.ofSection (id : Nat) : Loc := { Loc.none with sec := some id }

/-- A location holding a platform alone. -/
def Loc.ofPlatform (p : Nat) : Loc := { Loc.none with platform := some p }

/-- A location holding a run and a platform. -/
def Loc.ofRunAt (r p : Nat) : Loc := { Loc.none with run := some r, platform := some p }

/-- A location holding a field point alone. -/
def Loc.ofPoint (n : Nat) : Loc := { Loc.none with point := some n }

/-- A location holding a platform and a field point. -/
def Loc.ofPlatformPoint (p n : Nat) : Loc := { Loc.none with platform := some p, point := some n }

/-- Default severity of a kind (Table 6-2); an OPERATOR incident states its own. -/
def IncKind.severity : IncKind → Nat
  | .passengerAlarm => 4
  | .doorFault => 3
  | .trackIntrusion => 7
  | .trainStalled => 4
  | .lateTrain => 2
  | .handoverLost => 5
  | .sequenceGap => 4
  | .runConflict => 5
  | .unknownArrival => 4
  | .sectionTrip => 4
  | .sectionLockout => 6
  | .powerOverride => 2
  | .transducerFault => 3
  | .stationLinkLost => 4
  | .lineBusFault => 3
  | .timingExhausted => 3
  | .planFault => 2
  | .playerFault => 2
  | .operator => 1

/-- Default effects of a kind (Table 6-2); an OPERATOR incident states its own. -/
def IncKind.effects : IncKind → Effects
  | .passengerAlarm | .trainStalled | .sectionTrip | .sectionLockout =>
    { hold := true, cut := false, announce := true }
  | .doorFault => { hold := true, cut := false, announce := false }
  | .trackIntrusion => { hold := true, cut := true, announce := true }
  | .lateTrain | .handoverLost | .sequenceGap | .runConflict | .unknownArrival | .powerOverride
  | .transducerFault | .stationLinkLost | .lineBusFault | .timingExhausted | .planFault | .playerFault
  | .operator => Effects.none

/-- The kinds whose condition ends at once (Table 6-2). -/
def IncKind.atOnce : IncKind → Bool
  | .lateTrain | .sequenceGap | .runConflict | .unknownArrival | .powerOverride | .planFault => true
  | .passengerAlarm | .doorFault | .trackIntrusion | .trainStalled | .handoverLost | .sectionTrip
  | .sectionLockout | .transducerFault | .stationLinkLost | .lineBusFault | .timingExhausted | .playerFault
  | .operator => false

/-- The row of a kind in Table 6-2, counted from 1 (Table 12-5). -/
def IncKind.code : IncKind → Nat
  | .passengerAlarm => 1
  | .doorFault => 2
  | .trackIntrusion => 3
  | .trainStalled => 4
  | .lateTrain => 5
  | .handoverLost => 6
  | .sequenceGap => 7
  | .runConflict => 8
  | .unknownArrival => 9
  | .sectionTrip => 10
  | .sectionLockout => 11
  | .powerOverride => 12
  | .transducerFault => 13
  | .stationLinkLost => 14
  | .lineBusFault => 15
  | .timingExhausted => 16
  | .planFault => 17
  | .playerFault => 18
  | .operator => 19

/-- The kind of a row of Table 6-2. -/
def IncKind.ofCode : Nat → Option IncKind
  | 1 => some .passengerAlarm
  | 2 => some .doorFault
  | 3 => some .trackIntrusion
  | 4 => some .trainStalled
  | 5 => some .lateTrain
  | 6 => some .handoverLost
  | 7 => some .sequenceGap
  | 8 => some .runConflict
  | 9 => some .unknownArrival
  | 10 => some .sectionTrip
  | 11 => some .sectionLockout
  | 12 => some .powerOverride
  | 13 => some .transducerFault
  | 14 => some .stationLinkLost
  | 15 => some .lineBusFault
  | 16 => some .timingExhausted
  | 17 => some .planFault
  | 18 => some .playerFault
  | 19 => some .operator
  | _ => none

/-- The class of a telegram's kind (Table 9-1). -/
def Body.cls : Body → TelegramClass
  | .incident _ | .powerAsk _ | .powerGrant .. | .powerDefer .. | .powerReturn .. => .alert
  | .status _ | .handover _ | .takeover .. | .refusal .. | .renewAsk _ | .renewReply .. | .directive ..
  | .answer _ | .planOpen .. | .planClose .. => .control
  | .planBlock .. => .bulk

/-- The kind code of a telegram (Table 12-2). -/
def Body.code : Body → Nat
  | .incident _ => 1
  | .powerAsk _ => 2
  | .powerGrant .. => 3
  | .powerDefer .. => 4
  | .powerReturn .. => 5
  | .status _ => 6
  | .handover _ => 7
  | .takeover .. => 8
  | .refusal .. => 9
  | .renewAsk _ => 10
  | .renewReply .. => 11
  | .directive .. => 12
  | .answer _ => 13
  | .planOpen .. => 14
  | .planClose .. => 15
  | .planBlock .. => 16

/-- The code of a directive (Table 12-8). -/
def Directive.code : Directive → Nat
  | .ackIncident _ => 1
  | .holdTrain .. => 2
  | .releaseTrain .. => 3
  | .announce _ => 4
  | .cancelAnnounce .. => 5
  | .declareIncident _ => 6
  | .fieldQuery => 7
  | .clearIncident _ => 8
  | .withdrawRun .. => 9
  | .insertRun _ => 10
  | .setMode .. => 11
  | .isolateSection _ => 12
  | .restoreSection _ => 13
  | .clearOverflow => 14
  | .dayStart _ => 15
  | .restartNode => 16
  | .unknown c _ => c

/-- The level a directive needs (Table 10-7); a kind not in the table needs none. -/
def Directive.level : Directive → Nat
  | .ackIncident _ | .holdTrain .. | .releaseTrain .. | .announce _ | .cancelAnnounce .. | .declareIncident _
  | .fieldQuery => 1
  | .clearIncident _ | .withdrawRun .. | .insertRun _ | .setMode .. => 2
  | .isolateSection _ | .restoreSection _ | .clearOverflow | .dayStart _ | .restartNode => 3
  | .unknown .. => 0

/-- The ceiling of an authority level (10.6). -/
def levelCeiling : Nat → Nat
  | 1 => 4
  | 2 => 5
  | _ => 7

/-! ## Section current (R71) -/

/-- Im of a good gate: the frequency, then the current clamped to 0 to 16,000 (R71 1 to 3). -/
def gateCurrent (c : SectionCfg) (n : Nat) : Nat :=
  let f : Int := ((n * 1000000 / c.g : Nat) : Int)
  let i : Int := ((f - (c.fz : Int)) * (c.ks : Int)) / 256
  (clampInt 0 16000 i).toNat

/-- Net demand of an ask (R104): max(0, demand − credit). -/
def netDemand (demand credit : Nat) : Nat := demand - credit

end Sys2Proof.Machine
end

