-- ==== Sys2Proof/Machine/Operands.lean ====
section
/-! DEFINITION. The operand forms of telegrams and frames: big-endian numbers, packed decimal (R199), checksums, and the
readers a layout is parsed with. -/

namespace Sys2Proof.Machine

open Sys2Proof

/-! ## Bytes and numbers -/

/-- One byte holding a number below 256. -/
def byteOf (n : Nat) : Byte := BitVec.ofNat 8 n

/-- A number in w bytes, most significant byte first (12). -/
def bytesOf : Nat → Nat → Bytes
  | 0, _ => []
  | w + 1, n => bytesOf w (n / 256) ++ [byteOf n]

/-- The number that bytes hold, most significant byte first. -/
def natOf (bs : Bytes) : Nat := bs.foldl (fun a b => a * 256 + b.toNat) 0

/-- Bit i of a number as a Bool. -/
def bitOf (n i : Nat) : Bool := n.testBit i

/-- A Bool as bit i of a byte. -/
def bitAt (i : Nat) (b : Bool) : Nat := if b then 2 ^ i else 0

/-! ## Checksums (R200, 12.3, 12.4) -/

/-- One bit of a checksum of width w, most significant bit first. -/
def crcBit (w poly crc : Nat) : Nat :=
  if crc.testBit (w - 1) then ((crc * 2) ^^^ poly) % 2 ^ w else crc * 2 % 2 ^ w

/-- k bits of a checksum. -/
def crcBits (w poly : Nat) : Nat → Nat → Nat
  | 0, crc => crc
  | k + 1, crc => crcBits w poly k (crcBit w poly crc)

/-- A checksum over bytes, most significant bit first, with no final inversion. -/
def crcOver (w poly init : Nat) (bs : Bytes) : Nat :=
  bs.foldl (fun crc b => crcBits w poly 8 (crc ^^^ (b.toNat * 2 ^ (w - 8)))) init

/-- CRC-16 of a telegram: polynomial 0x1021, initial value 0xFFFF (R200). -/
def crc16 (bs : Bytes) : Nat := crcOver 16 0x1021 0xFFFF bs

/-- CRC-8 of a frame: polynomial 0x07, initial value 0x00 (12.3). -/
def crc8 (bs : Bytes) : Nat := crcOver 8 0x07 0 bs

/-- One bit of the reflected CRC-32; 0xEDB88320 is 0x04C11DB7 with its bits in reverse. -/
def crc32Bit (crc : Nat) : Nat := if crc.testBit 0 then (crc / 2) ^^^ 0xEDB88320 else crc / 2

/-- k bits of the reflected CRC-32. -/
def crc32Bits : Nat → Nat → Nat
  | 0, crc => crc
  | k + 1, crc => crc32Bits k (crc32Bit crc)

/-- CRC-32 of the configuration image: initial value 0xFFFFFFFF, reflected input and output, final inversion (12.4). -/
def crc32 (bs : Bytes) : Nat := (bs.foldl (fun crc b => crc32Bits 8 (crc ^^^ b.toNat)) 0xFFFFFFFF) ^^^ 0xFFFFFFFF

/-! ## Packed decimal (R199) -/

/-- k decimal digits, one in each nibble. -/
def bcdOf : Nat → Nat → Nat
  | 0, _ => 0
  | k + 1, n => bcdOf k (n / 10) * 16 + n % 10

/-- The number that k decimal nibbles hold; a nibble above 9 has none. -/
def bcdTo : Nat → Nat → Option Nat
  | 0, _ => some 0
  | k + 1, v => if 9 < v % 16 then none else (bcdTo k (v / 16)).map (fun x => x * 10 + v % 16)

/-- Sign nibble D for minus. -/
abbrev signMinus : Nat := 13

/-- Sign nibble C for plus. -/
abbrev signPlus : Nat := 12

/-- A packed field of k digits and a sign, in (k + 1) / 2 bytes. -/
def packDigits (k n : Nat) (minus : Bool) : Bytes :=
  bytesOf ((k + 1) / 2) (bcdOf k n * 16 + if minus then signMinus else signPlus)

/-- Run number: three digits and the sign C. -/
def packRun (n : Nat) : Bytes := packDigits 3 n false

/-- Service time: seven digits and the sign C. -/
def packTime (n : Nat) : Bytes := packDigits 7 n false

/-- Lateness: three digits and its sign; 0 is +000. -/
def packLateness (x : Int) : Bytes := packDigits 3 x.natAbs (decide (x < 0))

/-- An optional service time; absent is zero digits with sign C (12.1). -/
def packTimeOpt (t : Option Nat) : Bytes := packTime (t.getD 0)

/-- The sign of a nibble: true for minus; a digit is no sign (R199). -/
def signOf (v : Nat) : Option Bool :=
  match v with
  | 10 | 12 | 14 | 15 => some false
  | 11 | 13 => some true
  | _ => none

/-- A packed field's sign and digits. -/
def unpackDigits (k : Nat) (bs : Bytes) : Option (Bool × Nat) :=
  match signOf (natOf bs % 16), bcdTo k (natOf bs / 16) with
  | some m, some n => some (m, n)
  | _, _ => none

/-! ## Readers -/

/-- Reads a layout from bytes: an answer and the bytes left, or nothing when the layout fails. -/
abbrev Reader (α : Type) : Type := StateT Bytes Option α

/-- The next w bytes. -/
def takeBytes (w : Nat) : Reader Bytes := fun bs =>
  if w ≤ bs.length then some (bs.take w, bs.drop w) else none

/-- The next w bytes as a number. -/
def readNat (w : Nat) : Reader Nat := do
  let bs ← takeBytes w
  pure (natOf bs)

/-- The next byte. -/
def read1 : Reader Nat := readNat 1

/-- The next two bytes. -/
def read2 : Reader Nat := readNat 2

/-- Fails unless the condition holds. -/
def need (b : Bool) : Reader Unit := fun bs => if b then some ((), bs) else none

/-- The next w bytes as a number from lo to hi. -/
def readIn (w lo hi : Nat) : Reader Nat := do
  let n ← readNat w
  need (decide (lo ≤ n ∧ n ≤ hi))
  pure n

/-- The number of bytes left to read. -/
def bytesLeft : Reader Nat := fun bs => some (bs.length, bs)

/-- All bytes have been read. -/
def atEnd : Reader Unit := fun bs => if bs.isEmpty then some ((), bs) else none

/-- A field of w bytes that is read only when present; absent bytes are passed over, whatever they hold. R199 says so of
packed fields and 12.2 of a DIRECTIVE's parameters; for the binary fields of other bodies it is the model's (DESIGN
CHOICE, log 75). -/
def readWhen {α : Type} (present : Bool) (w : Nat) (r : Reader α) : Reader (Option α) :=
  if present then do
    let x ← r
    pure (some x)
  else do
    let _ ← takeBytes w
    pure none

/-- k readings one after another. -/
def readMany {α : Type} (r : Reader α) : Nat → Reader (List α)
  | 0 => pure []
  | k + 1 => do
    let x ← r
    let xs ← readMany r k
    pure (x :: xs)

/-- A run number: plus, digits (R199). -/
def readRun : Reader Nat := do
  let bs ← takeBytes 2
  match unpackDigits 3 bs with
  | some (false, n) => pure n
  | _ => failure

/-- A packed time of seven digits with a plus sign, of any value. -/
def readTimeAny : Reader Nat := do
  let bs ← takeBytes 4
  match unpackDigits 7 bs with
  | some (false, n) => pure n
  | _ => failure

/-- A service time: at most 1,079,999 (R199). -/
def readTime : Reader Nat := do
  let n ← readTimeAny
  need (decide (n ≤ serviceMax))
  pure n

/-- A lateness: −000 is 0 (R199). -/
def readLateness : Reader Int := do
  let bs ← takeBytes 2
  match unpackDigits 3 bs with
  | some (true, n) => pure (-(n : Int))
  | some (false, n) => pure (n : Int)
  | none => failure

/-- Runs a reader over all of the bytes. -/
def readAll {α : Type} (r : Reader α) (bs : Bytes) : Option α :=
  match r bs with
  | some (x, []) => some x
  | _ => none

end Sys2Proof.Machine
end

