-- ==== Sys2Proof/Machine/Formats.lean ====
section
/-! DEFINITION. Telegram and frame layouts (12.2, 12.3): the bytes the node forms and the bytes it reads. -/

namespace Sys2Proof.Machine

open Sys2Proof

/-! ## Codes -/

/-- Direction byte: 0 UP, 1 DOWN. -/
def dirCode : Dir → Nat
  | .up => 0
  | .down => 1

/-- Class byte (Table 12-2). -/
def classCode : TelegramClass → Nat
  | .alert => 0
  | .control => 1
  | .bulk => 2

/-- State byte of an INCIDENT (Table 12-5). -/
def incStateCode : IncState → Nat
  | .opened => 0
  | .acked => 1
  | .standing => 2
  | .cleared => 3

/-- The state of a byte of an INCIDENT. -/
def incStateOf : Nat → Option IncState
  | 0 => some .opened
  | 1 => some .acked
  | 2 => some .standing
  | 3 => some .cleared
  | _ => none

/-- Section state byte (Table 12-3). -/
def secStateCode : Option SectionState → Nat
  | none => 0
  | some .energized => 1
  | some .tripped => 2
  | some .recloseWait => 3
  | some .reclosing => 4
  | some .lockedOut => 5
  | some .isolated => 6
  | some .restoring => 7

/-- The section state of a byte. -/
def secStateOf : Nat → Option (Option SectionState)
  | 0 => some none
  | 1 => some (some .energized)
  | 2 => some (some .tripped)
  | 3 => some (some .recloseWait)
  | 4 => some (some .reclosing)
  | 5 => some (some .lockedOut)
  | 6 => some (some .isolated)
  | 7 => some (some .restoring)
  | _ => none

/-- Plan result byte (Table 12-3). -/
def planResultCode : PlanResult → Nat
  | .none => 0
  | .inProgress => 1
  | .done => 2
  | .rejected => 3
  | .timedOut => 4

/-- The plan result of a byte. -/
def planResultOf : Nat → Option PlanResult
  | 0 => some .none
  | 1 => some .inProgress
  | 2 => some .done
  | 3 => some .rejected
  | 4 => some .timedOut
  | _ => none

/-- Result byte of an ANSWER (Table 12-7). -/
def answerCode : AnswerResult → Nat
  | .done => 0
  | .denied => 1
  | .unknown => 2
  | .refused => 3
  | .busy => 4

/-- The result of a byte of an ANSWER. -/
def answerOf : Nat → Option AnswerResult
  | 0 => some .done
  | 1 => some .denied
  | 2 => some .unknown
  | 3 => some .refused
  | 4 => some .busy
  | _ => none

/-- Sweep reason byte (Table 12-9). -/
def sweepReasonCode : SweepReason → Nat
  | .start => 0
  | .restore => 1
  | .overrun => 2

/-- Effects byte (Table 12-5). -/
def effectsCode (e : Effects) : Nat := bitAt 0 e.hold + bitAt 1 e.cut + bitAt 2 e.announce

/-- The effects of a byte; bits not listed are ignored. -/
def effectsOf (n : Nat) : Effects := { hold := bitOf n 0, cut := bitOf n 1, announce := bitOf n 2 }

/-- Destination code and power class in one byte (Table 12-4). -/
def destClass (dest pclass : Nat) : Nat := dest % 32 + pclass % 4 * 32

/-! ## Bodies the node forms -/

/-- One direction of a STATUS (Table 12-3). -/
def emitStatusDir (d : StatusDir) : Bytes :=
  let p := d.prediction
  byteOf (bitAt 0 d.lastSend.isSome + bitAt 1 d.lastExpected.isSome + bitAt 2 p.isSome)
    :: byteOf (d.lastSend.getD 0) :: byteOf (d.lastExpected.getD 0)
    :: (packRun ((p.map (·.run)).getD 0) ++ packTimeOpt (p.map (·.origin)) ++ packTimeOpt (p.map (·.departure)))

/-- A section entry of a STATUS. -/
def emitSection (e : SectionEntry) : Bytes :=
  byteOf e.id :: byteOf (bitAt 0 e.stale + bitAt 1 e.im.isSome) :: byteOf (secStateCode e.state)
    :: bytesOf 2 (e.im.getD 0)

/-- STATUS (Table 12-3). -/
def emitStatus (b : StatusBody) : Bytes :=
  byteOf (bitAt 0 b.clock.isSome + bitAt 1 b.overrun + bitAt 2 b.console) :: byteOf b.level
    :: (packTimeOpt b.clock ++ emitStatusDir b.up ++ emitStatusDir b.down ++ [byteOf (planResultCode b.plan)]
      ++ bytesOf 2 b.drops ++ bytesOf 2 b.discards ++ bytesOf 2 b.overruns ++ bytesOf 2 b.annDropped
      ++ bytesOf 2 b.muted ++ [byteOf b.sections.length] ++ (b.sections.map emitSection).flatten)

/-- A HANDOVER body, with its direction byte when `withDir` (Table 12-4, Table 12-7). -/
def emitCarried (withDir : Bool) (e : SentEntry) : Bytes :=
  let c := e.carried
  packRun c.run ++ (if withDir then [byteOf (dirCode c.dir)] else []) ++ packTime c.origin
    ++ [byteOf (destClass c.dest c.pclass),
      byteOf (bitAt 0 c.lateness.isSome + bitAt 1 c.incRef.isSome + bitAt 2 c.consoleHold + bitAt 3 c.withdraw
        + bitAt 4 c.departedWithout)]
    ++ packLateness (c.lateness.getD 0) ++ [byteOf e.seq, byteOf ((c.incRef.map (·.node)).getD 0)]
    ++ bytesOf 2 ((c.incRef.map (·.serial)).getD 0)

/-- A received-history entry of a RENEW_REPLY. -/
def emitRecv (e : RecvEntry) : Bytes := packRun e.run ++ [byteOf e.seq]

/-- A cover or span; absent is zeros. -/
def emitSpan (x : Option Span) : Bytes :=
  bytesOf 2 ((x.map (·.fromEnd)).getD 0) ++ bytesOf 2 ((x.map (·.toEnd)).getD 0)

/-- The presence bits of a location's parts. -/
def locBits (l : Loc) : Nat :=
  bitAt 0 l.platform.isSome + bitAt 1 l.sec.isSome + bitAt 2 l.run.isSome + bitAt 3 l.point.isSome

/-- A location's parts. -/
def emitLoc (l : Loc) : Bytes :=
  byteOf (l.platform.getD 0) :: byteOf (l.sec.getD 0) :: (packRun (l.run.getD 0) ++ [byteOf (l.point.getD 0)])

/-- An incident id. -/
def emitId (i : IncId) : Bytes := byteOf i.node :: bytesOf 2 i.serial

/-- INCIDENT (Table 12-5). -/
def emitIncident (b : IncidentBody) : Bytes :=
  emitId b.id
    ++ [byteOf b.kind.code, byteOf b.severity, byteOf (incStateCode b.state),
      byteOf (locBits b.loc + bitAt 4 b.cover.isSome + bitAt 5 b.raised.isSome + bitAt 6 b.ackBy.isSome),
      byteOf (effectsCode b.effects)]
    ++ emitLoc b.loc ++ emitSpan b.cover ++ packTimeOpt b.raised ++ [byteOf (b.ackBy.getD 0)]

/-- POWER_ASK (Table 12-6). -/
def emitPowerAsk (b : PowerAskBody) : Bytes :=
  [byteOf b.sec, byteOf b.platform, byteOf b.serial, byteOf (bitAt 0 b.ready.isSome + bitAt 1 b.overrideFlag)]
    ++ packTimeOpt b.ready ++ bytesOf 2 b.demand ++ bytesOf 2 b.credit

/-- A plan entry (12.2). -/
def emitEntry (e : PlanEntry) : Bytes :=
  packRun e.run ++ [byteOf e.platform] ++ packTime e.departure ++ [byteOf (destClass e.dest e.pclass)]

/-- An optional platform of a directive. -/
def emitPlatform (p : Option Nat) : Bytes := [byteOf (bitAt 0 p.isSome), byteOf (p.getD 0)]

/-- Slot values. -/
def emitSlots (l : List Nat) : Bytes := (l.map (bytesOf 2)).flatten

/-- Parameters of a directive (Table 12-8). -/
def emitParams : Directive → Bytes
  | .ackIncident i | .clearIncident i => emitId i
  | .holdTrain r p | .releaseTrain r p | .withdrawRun r p => packRun r ++ emitPlatform p
  | .announce a =>
    [byteOf a.template, byteOf a.priority, byteOf a.zones.toNat] ++ emitSlots a.slots ++ [byteOf a.repeatCount]
      ++ bytesOf 2 a.interval
  | .cancelAnnounce t slots z => [byteOf t] ++ emitSlots slots ++ [byteOf z.toNat]
  | .declareIncident d =>
    [byteOf d.severity, byteOf (effectsCode d.effects), byteOf (locBits d.loc + bitAt 4 d.cover.isSome)]
      ++ emitLoc d.loc ++ emitSpan d.cover
  | .fieldQuery | .clearOverflow | .restartNode => []
  | .insertRun a =>
    packRun a.run ++ [byteOf (dirCode a.dir)] ++ packTime a.origin ++ [byteOf (destClass a.dest a.pclass)]
      ++ emitPlatform a.platform
  | .setMode m p => byteOf m :: emitPlatform p
  | .isolateSection i | .restoreSection i => [byteOf i]
  | .dayStart t => packTime t
  | .unknown _ ps => ps

/-- A DIRECTIVE body: code, serial, parameters. -/
def emitDirective (serial : Nat) (d : Directive) : Bytes := byteOf d.code :: byteOf serial :: emitParams d

/-- A point byte of an ANSWER. -/
def emitPoint (v : PointVal) : Byte := byteOf (v.value.getD 0 + bitAt 4 v.value.isNone + bitAt 5 v.stale)

/-- ANSWER (Table 12-7). -/
def emitAnswer (b : AnswerBody) : Bytes :=
  [byteOf b.code, byteOf b.serial, byteOf (answerCode b.result)] ++ ((b.points.getD []).map emitPoint)

/-- A telegram's body (12.2). -/
def emitBody : Body → Bytes
  | .incident b => emitIncident b
  | .powerAsk b => emitPowerAsk b
  | .powerGrant i p n | .powerReturn i p n => [byteOf i, byteOf p, byteOf n]
  | .powerDefer i p n full => [byteOf i, byteOf p, byteOf n, byteOf (bitAt 0 full)]
  | .status b => emitStatus b
  | .handover e => emitCarried true e
  | .takeover r d q => packRun r ++ [byteOf (dirCode d), byteOf q]
  | .refusal r d q dup => packRun r ++ [byteOf (dirCode d), byteOf q, byteOf (bitAt 0 dup)]
  | .renewAsk d => [byteOf (dirCode d)]
  | .renewReply d c (.sent es) =>
    [byteOf 0, byteOf (dirCode d), byteOf (bitAt 0 c.isSome), byteOf (c.getD 0), byteOf es.length]
      ++ (es.map (emitCarried false)).flatten
  | .renewReply d c (.received es) =>
    [byteOf 1, byteOf (dirCode d), byteOf (bitAt 0 c.isSome), byteOf (c.getD 0), byteOf es.length]
      ++ (es.map emitRecv).flatten
  | .directive n d => emitDirective n d
  | .answer b => emitAnswer b
  | .planOpen i n r => [byteOf i, byteOf n, byteOf r]
  | .planClose i n => byteOf i :: bytesOf 2 n
  | .planBlock i n es => [byteOf i, byteOf n, byteOf es.length] ++ (es.map emitEntry).flatten

/-- A telegram without its CRC (Table 12-2). -/
def emitHead (t : Telegram) : Bytes :=
  let b := emitBody t.body
  [byteOf t.body.code, byteOf (classCode t.body.cls), byteOf t.sender, byteOf t.target, byteOf b.length] ++ b

/-- A telegram (Table 12-2, R200). -/
def emitTelegram (t : Telegram) : Bytes := emitHead t ++ bytesOf 2 (crc16 (emitHead t))

/-! ## Bodies the node reads (R200) -/

/-- A direction byte. -/
def readDir : Reader Dir := do
  match (← read1) with
  | 0 => pure .up
  | 1 => pure .down
  | _ => failure

/-- One direction of a STATUS. -/
def readStatusDir : Reader StatusDir := do
  let bits ← read1
  let send ← read1
  let expected ← read1
  let p ← readWhen (bitOf bits 2) 10 (do
    let run ← readRun
    let origin ← readTime
    let departure ← readTime
    pure ({ run := run, origin := origin, departure := departure } : Prediction))
  pure
    { lastSend := if bitOf bits 0 then some send else none
      lastExpected := if bitOf bits 1 then some expected else none
      prediction := p }

/-- A section entry of a STATUS. -/
def readSection : Reader SectionEntry := do
  let id ← read1
  let bits ← read1
  let st ← read1
  let im ← readWhen (bitOf bits 1) 2 (readIn 2 0 16000)
  match secStateOf st with
  | some st => pure { id := id, stale := bitOf bits 0, im := im, state := st }
  | none => failure

/-- STATUS. -/
def readStatus : Reader Body := do
  let bits ← read1
  let level ← readIn 1 0 7
  let clock ← readWhen (bitOf bits 0) 4 readTime
  let up ← readStatusDir
  let down ← readStatusDir
  let plan ← read1
  let drops ← read2
  let discards ← read2
  let overruns ← read2
  let dropped ← read2
  let muted ← read2
  let n ← readIn 1 0 4
  let es ← readMany readSection n
  match planResultOf plan with
  | some r =>
    pure (.status
      { clock := clock, overrun := bitOf bits 1, console := bitOf bits 2, level := level, up := up,
        down := down, plan := r, drops := drops, discards := discards, overruns := overruns, annDropped := dropped,
        muted := muted, sections := es })
  | none => failure

/-- An incident id: R200 makes a value above its stated range malformed, and none below it (log 26). -/
def readId : Reader IncId := do
  let node ← readIn 1 0 32
  let serial ← readIn 2 0 4095
  pure { node := node, serial := serial }

/-- A HANDOVER body; the direction is given where the body does not hold it. -/
def readCarried (dir : Option Dir) : Reader SentEntry := do
  let run ← readRun
  let d ← (match dir with
    | some d => pure d
    | none => readDir)
  let origin ← readTime
  let dc ← read1
  let bits ← read1
  let late ← readWhen (bitOf bits 0) 2 readLateness
  let seq ← read1
  let inc ← readWhen (bitOf bits 1) 3 readId
  pure
    { carried :=
        { run := run, dir := d, origin := origin, dest := dc % 32, pclass := dc / 32 % 4, lateness := late,
          consoleHold := bitOf bits 2, withdraw := bitOf bits 3, departedWithout := bitOf bits 4, incRef := inc }
      seq := seq }

/-- A received-history entry. -/
def readRecv : Reader RecvEntry := do
  let run ← readRun
  let seq ← read1
  pure { run := run, seq := seq }

/-- A span. -/
def readSpan : Reader Span := do
  let a ← read2
  let b ← read2
  pure { fromEnd := a, toEnd := b }

/-- A location's parts, with the presence bits and the greatest platform that passes (R200). -/
def readLoc (bits greatest : Nat) : Reader Loc := do
  let p ← readWhen (bitOf bits 0) 1 (readIn 1 0 greatest)
  let k ← readWhen (bitOf bits 1) 1 read1
  let r ← readWhen (bitOf bits 2) 2 readRun
  let pt ← readWhen (bitOf bits 3) 1 (readIn 1 0 63)
  pure { platform := p, sec := k, run := r, point := pt }

/-- INCIDENT. -/
def readIncident : Reader Body := do
  let id ← readId
  let kind ← read1
  let sev ← readIn 1 0 7
  let st ← read1
  let bits ← read1
  let eff ← read1
  let loc ← readLoc bits 3
  let cover ← readWhen (bitOf bits 4) 4 readSpan
  let raised ← readWhen (bitOf bits 5) 4 readTime
  let ack ← readWhen (bitOf bits 6) 1 (readIn 1 0 32)
  match IncKind.ofCode kind, incStateOf st with
  | some k, some s =>
    pure (.incident
      { id := id, kind := k, severity := sev, state := s, loc := loc, effects := effectsOf eff,
        cover := cover, raised := raised, ackBy := ack })
  | _, _ => failure

/-- A platform index. -/
def readPlatform : Reader Nat := readIn 1 0 3

/-- POWER_ASK. -/
def readPowerAsk : Reader Body := do
  let k ← read1
  let p ← readPlatform
  let n ← read1
  let bits ← read1
  let t ← readWhen (bitOf bits 0) 4 readTime
  let dem ← readIn 2 0 8000
  let cr ← readIn 2 0 4000
  pure (.powerAsk
      { sec := k, platform := p, serial := n, ready := t, overrideFlag := bitOf bits 1, demand := dem,
        credit := cr })

/-- Section id, platform, serial. -/
def readPower (f : Nat → Nat → Nat → Body) : Reader Body := do
  let k ← read1
  let p ← readPlatform
  let n ← read1
  pure (f k p n)

/-- POWER_DEFER. -/
def readDefer : Reader Body := do
  let k ← read1
  let p ← readPlatform
  let n ← read1
  let r ← readIn 1 0 1
  pure (.powerDefer k p n (r == 1))

/-- A plan entry. -/
def readEntry : Reader PlanEntry := do
  let run ← readRun
  let p ← read1
  let t ← readTime
  let dc ← read1
  pure { run := run, platform := p, departure := t, dest := dc % 32, pclass := dc / 32 % 4 }

/-- TAKEOVER. -/
def readTakeover : Reader Body := do
  let run ← readRun
  let d ← readDir
  let q ← read1
  pure (.takeover run d q)

/-- REFUSAL. -/
def readRefusal : Reader Body := do
  let run ← readRun
  let d ← readDir
  let q ← read1
  let r ← readIn 1 0 1
  pure (.refusal run d q (r == 1))

/-- RENEW_ASK. -/
def readRenewAsk : Reader Body := do
  let d ← readDir
  pure (.renewAsk d)

/-- RENEW_REPLY. -/
def readRenewReply : Reader Body := do
  let side ← readIn 1 0 1
  let d ← readDir
  let bits ← read1
  let c ← read1
  let m ← readIn 1 0 8
  let counter := if bitOf bits 0 then some c else none
  if side == 0 then do
    let es ← readMany (readCarried (some d)) m
    pure (.renewReply d counter (.sent es))
  else do
    let es ← readMany readRecv m
    pure (.renewReply d counter (.received es))

/-- A directive's optional platform: any value passes. -/
def readDirPlatform : Reader (Option Nat) := do
  let bits ← read1
  readWhen (bitOf bits 0) 1 read1

/-- Slot values: at most 9,999 each. -/
def readSlots : Reader (List Nat) := readMany (readIn 2 0 9999) 4

/-- Run and optional platform. -/
def readRunPlatform (f : Nat → Option Nat → Directive) : Reader Directive := do
  let r ← readRun
  let p ← readDirPlatform
  pure (f r p)

/-- Parameters of ANNOUNCE. -/
def readAnnounce : Reader Directive := do
  let t ← read1
  let p ← read1
  let z ← read1
  let slots ← readSlots
  let n ← read1
  let i ← read2
  pure (.announce
      { template := t, priority := p, zones := BitVec.ofNat 5 z, slots := slots, repeatCount := n,
        interval := i })

/-- Parameters of CANCEL_ANNOUNCE. -/
def readCancel : Reader Directive := do
  let t ← read1
  let slots ← readSlots
  let z ← read1
  pure (.cancelAnnounce t slots (BitVec.ofNat 5 z))

/-- Parameters of DECLARE_INCIDENT. -/
def readDeclare : Reader Directive := do
  let sev ← read1
  let eff ← read1
  let bits ← read1
  let loc ← readLoc bits 255
  let cover ← readWhen (bitOf bits 4) 4 readSpan
  pure (.declareIncident { severity := sev, effects := effectsOf eff, loc := loc, cover := cover })

/-- Parameters of INSERT_RUN. -/
def readInsert : Reader Directive := do
  let run ← readRun
  let d ← readDir
  let t ← readTime
  let dc ← read1
  let p ← readDirPlatform
  pure (.insertRun { run := run, dir := d, origin := t, dest := dc % 32, pclass := dc / 32 % 4, platform := p })

/-- A directive's parameters by its code; a code not in Table 12-8 takes all the bytes left. -/
def readParams (code : Nat) : Reader Directive :=
  match code with
  | 1 => do
    let i ← readId
    pure (.ackIncident i)
  | 2 => readRunPlatform .holdTrain
  | 3 => readRunPlatform .releaseTrain
  | 4 => readAnnounce
  | 5 => readCancel
  | 6 => readDeclare
  | 7 => pure .fieldQuery
  | 8 => do
    let i ← readId
    pure (.clearIncident i)
  | 9 => readRunPlatform .withdrawRun
  | 10 => readInsert
  | 11 => do
    let m ← read1
    let p ← readDirPlatform
    pure (.setMode m p)
  | 12 => do
    let i ← read1
    pure (.isolateSection i)
  | 13 => do
    let i ← read1
    pure (.restoreSection i)
  | 14 => pure .clearOverflow
  | 15 => do
    let t ← readTimeAny
    pure (.dayStart t)
  | 16 => pure .restartNode
  | c => fun bs => some (.unknown c bs, [])

/-- A DIRECTIVE body: serial and directive. -/
def readDirective : Reader (Nat × Directive) := do
  let code ← read1
  let serial ← read1
  let d ← readParams code
  pure (serial, d)

/-- A point byte of an ANSWER. -/
def readPointVal : Reader PointVal := do
  let n ← read1
  pure { value := if bitOf n 4 then none else some (n % 16), stale := bitOf n 5 }

/-- ANSWER. -/
def readAnswer : Reader Body := do
  let code ← read1
  let serial ← read1
  let r ← read1
  match answerOf r with
  | some res =>
    if code == 7 && r == 0 then do
      let ps ← readMany readPointVal 64
      pure (.answer { code := code, serial := serial, result := res, points := some ps })
    else pure (.answer { code := code, serial := serial, result := res, points := none })
  | none => failure

/-- PLAN_OPEN: its counts are tested by their owner (R173). -/
def readPlanOpen : Reader Body := do
  let i ← read1
  let n ← read1
  let r ← read1
  pure (.planOpen i n r)

/-- PLAN_CLOSE. -/
def readPlanClose : Reader Body := do
  let i ← read1
  let n ← read2
  pure (.planClose i n)

/-- PLAN_BLOCK. -/
def readPlanBlock : Reader Body := do
  let i ← read1
  let n ← read1
  let m ← readIn 1 0 8
  let es ← readMany readEntry m
  pure (.planBlock i n es)

/-- A body by its kind code. -/
def readBody (kind : Nat) : Reader Body :=
  match kind with
  | 1 => readIncident
  | 2 => readPowerAsk
  | 3 => readPower .powerGrant
  | 4 => readDefer
  | 5 => readPower .powerReturn
  | 6 => readStatus
  | 7 => do
    let e ← readCarried none
    pure (.handover e)
  | 8 => readTakeover
  | 9 => readRefusal
  | 10 => readRenewAsk
  | 11 => readRenewReply
  | 12 => do
    let x ← readDirective
    pure (.directive x.1 x.2)
  | 13 => readAnswer
  | 14 => readPlanOpen
  | 15 => readPlanClose
  | 16 => readPlanBlock
  | _ => failure

/-- STATUS and INCIDENT are broadcast; every other kind is targeted (9.1). -/
def Body.broadcast : Body → Bool
  | .status _ | .incident _ => true
  | _ => false

/-- A telegram's header and body agree with R200. -/
def checkHead (cls sender target : Nat) (b : Body) : Bool :=
  cls == classCode b.cls && decide (1 ≤ sender ∧ sender ≤ 32) && decide (target ≤ 32)
    && (b.broadcast == (target == 0))

/-- A whole telegram whose CRC agrees and that is not malformed (R200); its length is 7 + L. -/
def parseTelegram (bs : Bytes) : Option Telegram :=
  match bs with
  | kind :: cls :: sender :: target :: len :: rest =>
    if len.toNat ≤ 120 && rest.length == len.toNat + 2
        && crc16 (bs.take (5 + len.toNat)) == natOf (rest.drop len.toNat) then
      match readAll (readBody kind.toNat) (rest.take len.toNat) with
      | some b =>
        if checkHead cls.toNat sender.toNat target.toNat b then
          some { sender := sender.toNat, target := target.toNat, body := b }
        else none
      | none => none
    else none
  | _ => none

/-! ## Station link and player link frames (12.3, R201) -/

/-- A frame: kind, length, body, CRC-8. -/
def emitFrame (kind : Nat) (body : Bytes) : Bytes :=
  let h := byteOf kind :: byteOf body.length :: body
  h ++ [byteOf (crc8 h)]

/-- An indication byte of a DISPLAY. -/
def indicationCode : Indication → Nat
  | .minutes n => n
  | .due => 100
  | .held => 101

/-- An entry of a DISPLAY. -/
def emitLine (e : LineEntry) : Bytes :=
  packRun e.run ++ [byteOf (e.dest.getD 255), byteOf (indicationCode e.indication)]

/-- What a VIEW carries. Table 12-9 lists no values for the byte of a local result: it has the result codes of an ANSWER
(Table 12-7; DESIGN CHOICE, log 65). -/
def emitView : ViewContent → Bytes
  | .telegram bs => byteOf 0 :: bs
  | .result o r => [byteOf 1, byteOf o, byteOf (answerCode r)]

/-- A command's frame (Table 12-9). -/
def emitCommand : FieldCmd → Bytes
  | .authority p on => emitFrame 16 [byteOf p, byteOf (bitAt 0 on)]
  | .breaker k close => emitFrame 17 [byteOf k, byteOf (bitAt 0 close)]
  | .sweepAsk r lost => emitFrame 18 (byteOf (sweepReasonCode r) :: bytesOf 2 lost)
  | .display p l => emitFrame 19 ([byteOf p, byteOf l.length] ++ (l.map emitLine).flatten)
  | .view v l c => emitFrame 20 (bytesOf 2 v ++ bytesOf 2 l ++ emitView c)

/-- A PLAY frame: phrase code, zone set, CRC-8 (12.3). -/
def emitPlay (code : Nat) (zones : BitVec 5) : Bytes :=
  let h := bytesOf 2 code ++ [byteOf zones.toNat]
  h ++ [byteOf (crc8 h)]

/-- A frame the concentrator sends: a report, or IDLE. -/
inductive InFrame where
  | report (r : Report)
  | idle
  deriving DecidableEq, Repr

/-- A WORKSTATION order (Table 12-9); a DIRECTIVE's target 0 is answered REFUSED by R187. Its body is a DIRECTIVE body
of 12.2, 2 to 120 bytes. -/
def readOrder : Reader InFrame := do
  match (← read1) with
  | 0 => do
    let t ← readIn 1 0 32
    let n ← bytesLeft
    need (decide (2 ≤ n ∧ n ≤ 120))
    let x ← readDirective
    pure (.report (.directive t x.1 x.2))
  | 1 => pure (.report .planClear)
  | 2 => do
    let e ← readEntry
    pure (.report (.planEntry e))
  | 3 => do
    let t ← readIn 1 0 32
    let i ← read1
    pure (.report (.planSend t i))
  | _ => failure

/-- A frame's body by its kind. -/
def readFrame (kind : Nat) : Reader InFrame :=
  match kind with
  | 1 => do
    let n ← readIn 1 0 63
    let v ← readIn 1 0 15
    pure (.report (.point n v))
  | 2 => pure (.report .sweepBegin)
  | 3 => pure (.report .sweepEnd)
  | 4 => pure .idle
  | 5 => readOrder
  | _ => failure

/-- A valid frame (R201): at most 160 bytes, its CRC-8 agrees, and its layout holds. -/
def parseFrame (bs : Bytes) : Option InFrame :=
  match bs with
  | kind :: len :: rest =>
    if bs.length ≤ 160 && rest.length == len.toNat + 1
        && crc8 (bs.take (2 + len.toNat)) == natOf (rest.drop len.toNat) then
      readAll (readFrame kind.toNat) (rest.take len.toNat)
    else none
  | _ => none

end Sys2Proof.Machine
end

