-- ==== Sys2Proof/Machine/Ops.lean ====
section
/-! DEFINITION. Reading and changing the records of the state by name; requests between blocks; the reference
clock. -/

namespace Sys2Proof.Machine

open Sys2Proof

/-! ## Requests between blocks (R4; log 9) -/

/-- A block asks another: the request joins those still to be taken in this event. -/
def State.post (s : State) (m : Msg) : State := { s with work := s.work ++ [m] }

/-- Several requests, in order. -/
def State.posts (s : State) (ms : List Msg) : State := { s with work := s.work ++ ms }

/-- Asks the INU to raise a kind at a location with the defaults of Table 6-2 (R112). -/
def State.raise (s : State) (k : IncKind) (l : Loc) : State :=
  s.post (.raise { kind := k, loc := l, cover := none, severity := none, effects := none })

/-- Asks the INU to raise a kind with a stated cover (R110). -/
def State.raiseOver (s : State) (k : IncKind) (l : Loc) (cover : Option Span) : State :=
  s.post (.raise { kind := k, loc := l, cover := some cover, severity := none, effects := none })

/-! ## Platforms, contexts, sections, arbiters, askers -/

/-- Constants of platform p, when configured. -/
def State.pcfg (s : State) (p : Nat) : Option PlatformCfg := s.cfg.platforms[p]?

/-- Number of configured platforms. -/
def State.platformCount (s : State) : Nat := s.cfg.platforms.length

/-- Indexes of the configured platforms. -/
def State.platforms (s : State) : List Nat := List.range s.cfg.platforms.length

/-- Dynamic fields of platform p. -/
def State.plat (s : State) (p : Nat) : PlatDyn := s.ttu.plats.getD p .cold

/-- Changes the dynamic fields of platform p. -/
def State.updPlat (s : State) (p : Nat) (f : PlatDyn → PlatDyn) : State :=
  { s with ttu := { s.ttu with plats := s.ttu.plats.modify p f } }

/-- Departure context of platform p. -/
def State.ctx (s : State) (p : Nat) : Ctx := s.rge.ctxs.getD p .cold

/-- Changes the departure context of platform p. -/
def State.updCtx (s : State) (p : Nat) (f : Ctx → Ctx) : State :=
  { s with rge := { s.rge with ctxs := s.rge.ctxs.modify p f } }

/-- Constants of section record k, when configured. -/
def State.scfg (s : State) (k : Nat) : Option SectionCfg := s.cfg.sections[k]?

/-- Indexes of the configured section records. -/
def State.sections (s : State) : List Nat := List.range s.cfg.sections.length

/-- Dynamic fields of section record k. -/
def State.sec (s : State) (k : Nat) : SecDyn := s.secs.getD k .cold

/-- Changes the dynamic fields of section record k. -/
def State.updSec (s : State) (k : Nat) (f : SecDyn → SecDyn) : State :=
  { s with secs := s.secs.modify k f }

/-- The section record that carries a section id (R69). -/
def State.secIndex (s : State) (id : Nat) : Option Nat := s.cfg.sections.findIdx? (fun c => c.id == id)

/-- Section record k is owned by this node. -/
def State.owns (s : State) (k : Nat) : Bool :=
  match s.scfg k with
  | some c => c.owner
  | none => false

/-- Arbiter records of section record k. -/
def State.arb (s : State) (k : Nat) : Arb := s.sar.arbs.getD k .cold

/-- Changes the arbiter records of section record k. -/
def State.updArb (s : State) (k : Nat) (f : Arb → Arb) : State :=
  { s with sar := { s.sar with arbs := s.sar.arbs.modify k f } }

/-- Asker record of platform p. -/
def State.asker (s : State) (p : Nat) : Asker := s.sar.askers.getD p .cold

/-- Changes the asker record of platform p. -/
def State.updAsker (s : State) (p : Nat) (f : Asker → Asker) : State :=
  { s with sar := { s.sar with askers := s.sar.askers.modify p f } }

/-- Handover state of a direction. -/
def State.hoeDir (s : State) : Dir → HoeDir
  | .up => s.hoe.up
  | .down => s.hoe.down

/-- Changes the handover state of a direction. -/
def State.updHoeDir (s : State) (d : Dir) (f : HoeDir → HoeDir) : State :=
  match d with
  | .up => { s with hoe := { s.hoe with up := f s.hoe.up } }
  | .down => { s with hoe := { s.hoe with down := f s.hoe.down } }

/-- ENERGIZED, for every block that reads section state: an id that names no record, and a state not held, count as
not ENERGIZED (R69, R77). -/
def State.energizedId (s : State) (id : Nat) : Bool :=
  match s.secIndex id with
  | some k => (s.sec k).state == some .energized
  | none => false

/-! ## Train records -/

/-- The record with a tag. -/
def State.recOf (s : State) (tag : Nat) : Option TrainRec := s.ttu.table.find? (fun r => r.tag == tag)

/-- The record carrying a run number (the first, for run 000). -/
def State.recOfRun (s : State) (run : Nat) : Option TrainRec := s.ttu.table.find? (fun r => r.run == run)

/-- A record other than the one tagged carries the run. -/
def State.runCarriedByOther (s : State) (run tag : Nat) : Bool :=
  s.ttu.table.any (fun r => r.run == run && r.tag != tag)

/-- Some record carries the run. -/
def State.runCarried (s : State) (run : Nat) : Bool := s.ttu.table.any (fun r => r.run == run)

/-- A request that sets fields or flags of a record, applied in any state; dropped when the tag is gone (R4). -/
def State.updRec (s : State) (tag : Nat) (f : TrainRec → TrainRec) : State :=
  { s with ttu := { s.ttu with table := s.ttu.table.map (fun r => if r.tag == tag then f r else r) } }

/-- A request to change a record's state, applied only if it is still in the state named as left (R4). -/
def State.moveRec (s : State) (tag : Nat) (leave enter : TrainState) : State :=
  s.updRec tag (fun r => if r.state == leave then { r with state := enter } else r)

/-- The state of the record with a tag. -/
def State.recState (s : State) (tag : Nat) : Option TrainState := (s.recOf tag).map (·.state)

/-! ## Start state, role, clock -/

/-- The node has entered LISTEN and is not in CONFIG_FAULT: the blocks take their events. -/
def State.listening (s : State) : Bool :=
  match s.cfl.start with
  | .listen | .rebuild | .running => true
  | .loading | .configFault => false

/-- REBUILD or RUNNING: the node transmits (R161). -/
def State.speaking (s : State) : Bool :=
  match s.cfl.start with
  | .rebuild | .running => true
  | .loading | .listen | .configFault => false

/-- RUNNING. -/
def State.isRunning (s : State) : Bool := s.cfl.start == .running

/-- STATION role. -/
def State.isStation (s : State) : Bool := s.cfg.role == .station

/-- The service clock; absent is UNSET (R156). -/
def State.now (s : State) : Option Nat := s.tiu.clock

/-- A running time is reached: the running time has become equal to it or passed it (5.1). -/
def State.reached (s : State) (t : Nat) : Bool := decide (t ≤ s.runTime)

/-- An optional running time is present and reached. -/
def State.reachedOpt (s : State) (t : Option Nat) : Bool :=
  match t with
  | some t => s.reached t
  | none => false

/-! ## The reference clock (R148, R178; log 5) -/

/-- REFCLK cycles in one tick (R148). -/
abbrev cyclesPerTick : Nat := 100000

/-- The reference moment at which the present tick began. -/
def State.tickStart (s : State) : Nat := s.refMoment / cyclesPerTick * cyclesPerTick

/-- The moment an event names by its cycle within the present tick; absent when the cycle lies outside the tick or
before a moment already taken. -/
def State.momentAt (s : State) (cycle : Nat) : Option Nat :=
  if cycle < cyclesPerTick ∧ s.refMoment ≤ s.tickStart + cycle then some (s.tickStart + cycle) else none

/-- Takes an event at its moment, when it has an occasion then; an event whose moment is not in the present tick, or
that has no occasion, does not arise (log 1, 5). -/
def State.atCycle (s : State) (cycle : Nat) (occasion : Nat → Bool) (f : Nat → State → State) : State :=
  match s.momentAt cycle with
  | some m => if occasion m then f m { s with refMoment := m } else s
  | none => s

end Sys2Proof.Machine
end

