-- ==== Sys2Proof/Machine/Timing.lean ====
section
/-! DEFINITION. Timing Unit (08): requests for timers, operations on held timers, the counting of a tick, expiries,
the service clock and its trim. -/

namespace Sys2Proof.Machine

open Sys2Proof

/-! ## Channels and places -/

/-- Channel i. -/
def State.chan (s : State) (i : Nat) : Channel := s.tiu.chans.getD i .bound

/-- Changes channel i. -/
def State.updChan (s : State) (i : Nat) (f : Channel → Channel) : State :=
  { s with tiu := { s.tiu with chans := s.tiu.chans.modify i f } }

/-- Coarse place i. -/
def State.place (s : State) (i : Nat) : CoarsePlace := s.tiu.coarse.getD i .empty

/-- Changes coarse place i. -/
def State.updPlace (s : State) (i : Nat) (f : CoarsePlace → CoarsePlace) : State :=
  { s with tiu := { s.tiu with coarse := s.tiu.coarse.modify i f } }

/-- Channel i is FREE. -/
def State.chanFree (s : State) (i : Nat) : Bool := (s.chan i).use == .free

/-- The pair partner of a pool channel: 6 with 7, up to 22 with 23; channel 5 has none (R153). -/
def pairPartner (i : Nat) : Option Nat :=
  if i < 6 then none else if i % 2 = 0 then some (i + 1) else some (i - 1)

/-- The pair partner of channel i is in use. -/
def State.partnerInUse (s : State) (i : Nat) : Bool :=
  match pairPartner i with
  | some j => !s.chanFree j
  | none => false

/-- Channels 6 to 23. -/
def pairedChannels : List Nat := List.range' 6 18

/-- The even channels of the nine pairs (R153). -/
def pairHeads : List Nat := [6, 8, 10, 12, 14, 16, 18, 20, 22]

/-- The channel that serves a request of up to 65,535 ds, in the order of preference of R149 step 1. -/
def State.pickChannel (s : State) : Option Nat :=
  if s.chanFree 5 then some 5
  else
    match pairedChannels.find? (fun i => s.chanFree i && s.partnerInUse i) with
    | some i => some i
    | none => pairedChannels.find? (fun i => s.chanFree i)

/-- The lowest-numbered pair of which both channels are FREE (R153). -/
def State.pickPair (s : State) : Option Nat :=
  pairHeads.find? (fun i => s.chanFree i && s.chanFree (i + 1))

/-- A free place of the coarse list: the lowest, R154 gives the places no order (DESIGN CHOICE, log 84). -/
def State.pickPlace (s : State) : Option Nat := s.tiu.coarse.findIdx? (fun c => !c.occupied)

/-- A load (R150): count and reload value, mark (none when not below the load), mode; the channel is RUNNING. -/
def Channel.load (c : Channel) (n : Nat) (mark : Option Nat) (periodic : Bool) : Channel :=
  { c with
    use := .running
    count := n
    reload := n
    mark := mark.filter (fun m => decide (m < n))
    periodic := periodic
    markDue := false
    expiryDue := false }

/-! ## Requests (R149) -/

/-- A channel is lent: owner set, grant tag stepped. -/
def Channel.lend (c : Channel) (o : TimerOwner) : Channel := { c with owner := some o, tag := wrap8 (c.tag + 1) }

/-- Step 1: one channel. -/
def State.grantChannel (s : State) (i : Nat) (o : TimerOwner) (n : Nat) (mark : Option Nat) (periodic : Bool) :
    State × Option Handle :=
  (s.updChan i (fun c => { (c.lend o).load n mark periodic with partner := none }),
    some { slot := .chan i, tag := wrap8 ((s.chan i).tag + 1) })

/-- Step 2: a joined pair; the even channel holds the low 16 bits and the odd channel the high 16 bits (R153). -/
def State.grantPair (s : State) (i : Nat) (o : TimerOwner) (n : Nat) : State × Option Handle :=
  ((s.updChan i (fun c => { (c.lend o).load (n % 65536) none false with partner := some (i + 1) })).updChan (i + 1)
      (fun c => { (c.lend o).load (n / 65536) none false with partner := some i }),
    some { slot := .chan i, tag := wrap8 ((s.chan i).tag + 1) })

/-- Step 3: a place of the coarse list, with deadline the current running time plus the load (R154). -/
def State.grantPlace (s : State) (i : Nat) (o : TimerOwner) (n : Nat) : State × Option Handle :=
  (s.updPlace i (fun c =>
      { c with
        occupied := true
        deadline := s.runTime + n
        paused := false
        remaining := 0
        owner := some o
        tag := wrap8 (c.tag + 1)
        due := false }),
    some { slot := .coarse i, tag := wrap8 ((s.place i).tag + 1) })

/-- Step 4: the request is refused, and TIMING_EXHAUSTED is raised (R155). -/
def State.refuseTimer (s : State) : State × Option Handle :=
  ({ s with tiu := { s.tiu with refused := true } }.raise .timingExhausted Loc.none, none)

/-- Steps 3 and 4: only a one-shot request with no mark may take a coarse place. -/
def State.requestCoarse (s : State) (o : TimerOwner) (n : Nat) (mark : Option Nat) (periodic : Bool) :
    State × Option Handle :=
  if mark.isNone && !periodic then
    match s.pickPlace with
    | some i => s.grantPlace i o n
    | none => s.refuseTimer
  else s.refuseTimer

/-- A block asks for a pool timer (R149). The answer is a handle, or nothing when refused. -/
def State.requestTimer (s : State) (o : TimerOwner) (n : Nat) (mark : Option Nat := none) (periodic : Bool := false) :
    State × Option Handle :=
  if n ≤ 65535 then
    match s.pickChannel with
    | some i => s.grantChannel i o n mark periodic
    | none => s.requestCoarse o n mark periodic
  else if mark.isNone && !periodic then
    match s.pickPair with
    | some i => s.grantPair i o n
    | none => s.requestCoarse o n mark periodic
  else s.refuseTimer

/-! ## Operations on a held timer (R151) -/

/-- The handle still names its timer: the channel is not FREE, or the place is occupied, with the same grant tag. -/
def State.holds (s : State) (h : Handle) : Bool :=
  match h.slot with
  | .chan i => (s.chan i).use != .free && (s.chan i).tag == h.tag
  | .coarse i => (s.place i).occupied && (s.place i).tag == h.tag

/-- Changes the channel of a handle, and the partner of a joined pair with it. -/
def State.updPairOf (s : State) (i : Nat) (f : Channel → Channel) : State :=
  match (s.chan i).partner with
  | some j => (s.updChan i f).updChan j f
  | none => s.updChan i f

/-- A RUNNING channel stops, keeping count and mark; it does not expire while stopped. -/
def Channel.stop (c : Channel) : Channel :=
  if c.use == .running then { c with use := .stopped, markDue := false, expiryDue := false } else c

/-- A STOPPED channel counts on from its kept count; with nothing left to count its expiry is due at once. -/
def Channel.resume (c : Channel) : Channel :=
  if c.use == .stopped then
    { c with use := .running, expiryDue := c.count == 0 && c.partner.isNone }
  else c

/-- Released to the pool. -/
def Channel.release (c : Channel) : Channel :=
  { c with use := .free, count := 0, mark := none, owner := none, partner := none, markDue := false, expiryDue := false }

/-- Stop. A coarse deadline that has passed and waits for its whole second keeps a remaining time of 0, where R154's
subtraction goes below 0 (DESIGN CHOICE, log 61). -/
def State.stopTimer (s : State) (h : Handle) : State :=
  if s.holds h then
    match h.slot with
    | .chan i => s.updPairOf i Channel.stop
    | .coarse i =>
      s.updPlace i (fun c =>
        if c.paused then c else { c with paused := true, remaining := c.deadline - s.runTime, due := false })
  else s

/-- Resume. -/
def State.resumeTimer (s : State) (h : Handle) : State :=
  if s.holds h then
    match h.slot with
    | .chan i => s.updPairOf i Channel.resume
    | .coarse i =>
      s.updPlace i (fun c =>
        if c.paused then { c with paused := false, deadline := s.runTime + c.remaining } else c)
  else s

/-- The owner of channel i is given its expiry in the present event (R150). -/
def State.expireNow (s : State) (i : Nat) : State :=
  match (s.chan i).owner with
  | some o => s.post (.timerExpired o)
  | none => s

/-- A new load, mark and mode for a held channel (R150); a joined pair stays joined, one-shot and with no mark (R153).
-/
def State.loadHeld (s : State) (i n : Nat) (mark : Option Nat) (periodic : Bool) : State :=
  match (s.chan i).partner with
  | some j => (s.updChan i (fun c => c.load (n % 65536) none false)).updChan j (fun c => c.load (n / 65536) none false)
  | none => s.updChan i (fun c => c.load n mark periodic)

/-- Load again (R151). A load of 0 on a held channel sets nothing and gives its owner the expiry at once (R150); a
coarse place takes a new deadline, and has no mark and no period (R154). -/
def State.reloadTimer (s : State) (h : Handle) (n : Nat) (mark : Option Nat := none) (periodic : Bool := false) : State :=
  if s.holds h then
    match h.slot with
    | .chan i => if n = 0 then s.expireNow i else s.loadHeld i n mark periodic
    | .coarse i => s.updPlace i (fun c => { c with deadline := s.runTime + n, paused := false, due := false })
  else s

/-- The TIU tells the INU that the condition has ended at each release of a pool channel that follows a refusal
(R155). -/
def State.endExhaustion (s : State) : State :=
  if s.tiu.refused then s.post (.condEnd .timingExhausted Loc.none) else s

/-- Release. -/
def State.releaseTimer (s : State) (h : Handle) : State :=
  if s.holds h then
    match h.slot with
    | .chan i => (s.updPairOf i Channel.release).endExhaustion
    | .coarse i => s.updPlace i (fun c => { c with occupied := false, owner := none, due := false, paused := false })
  else s

/-- Release of an optional handle. -/
def State.releaseOpt (s : State) (h : Option Handle) : State :=
  match h with
  | some h => s.releaseTimer h
  | none => s

/-- The expiry of a held timer is due: its owner may be given it (R150, R154; log 8). -/
def State.expired (s : State) (h : Handle) : Bool :=
  s.holds h &&
    match h.slot with
    | .chan i => (s.chan i).expiryDue && !(s.chan i).markDue
    | .coarse i => (s.place i).due

/-- The expiry of an optional handle is due. -/
def State.expiredOpt (s : State) (h : Option Handle) : Bool :=
  match h with
  | some h => s.expired h
  | none => false

/-! ## Bound channels (R152) -/

/-- Loads the dwell channel of platform p; a load of 0 sets nothing (R150), and the callers take its expiry. -/
def State.loadDwell (s : State) (p n : Nat) (mark : Option Nat) : State :=
  if n = 0 then s else s.updChan p (fun c => { c.load n mark false with owner := some (.dwell p) })

/-- Stops the dwell channel of platform p; where the manual says "released", a bound channel is stopped. -/
def State.stopDwell (s : State) (p : Nat) : State := s.updChan p Channel.stop

/-- The mark of the dwell channel is due. -/
def State.dwellMarkDue (s : State) (p : Nat) : Bool := (s.chan p).markDue

/-- The expiry of the dwell channel is due; a channel delivers its own mark before its own expiry. -/
def State.dwellExpiryDue (s : State) (p : Nat) : Bool := (s.chan p).expiryDue && !(s.chan p).markDue

/-- The mark of the dwell channel is taken. -/
def State.takeMark (s : State) (p : Nat) : State := s.updChan p (fun c => { c with markDue := false })

/-- A one-shot expiry of a bound channel is taken: it becomes STOPPED with count 0 (R150). -/
def State.takeDwellExpiry (s : State) (p : Nat) : State :=
  s.updChan p (fun c => { c with use := .stopped, count := 0, expiryDue := false })

/-- Channel 4 is loaded PERIODIC with 10 and no mark (R152). -/
def State.startStatusPeriod (s : State) : State :=
  s.updChan 4 (fun c => { c.load 10 none true with owner := some .statusPeriod })

/-! ## The tick (R148, R150, R153, R154, R156) -/

/-- A single channel counts down by one. -/
def Channel.tick (c : Channel) : Channel :=
  let n := c.count - 1
  let markDue := c.markDue || (c.mark == some n)
  if n = 0 then
    { c with count := if c.periodic then c.reload else 0, markDue := markDue, expiryDue := true }
  else { c with count := n, markDue := markDue }

/-- One half of a joined pair counts down with the other: `low` says it holds the low 16 bits. -/
def Channel.tickPair (c other : Channel) (low : Bool) : Channel :=
  let whole := (if low then c.count + 65536 * other.count else other.count + 65536 * c.count) - 1
  { c with count := if low then whole % 65536 else whole / 65536, expiryDue := low && whole == 0 }

/-- Channel i at a tick, given all channels before the tick. A channel whose one-shot expiry waits to be taken counts
no further (log 8). -/
def tickChannel (before : List Channel) (i : Nat) (c : Channel) : Channel :=
  if c.use == .running then
    match c.partner with
    | none => if c.expiryDue && !c.periodic then c else c.tick
    | some j =>
      let o := before.getD j .bound
      if c.expiryDue || o.expiryDue then c else c.tickPair o (i % 2 = 0)
  else c

/-- Every channel at a tick. -/
def tickChannels (cs : List Channel) : List Channel := cs.mapIdx (fun i c => tickChannel cs i c)

/-- A coarse place at the new running time: a RUNNING deadline at or before it is due when it is a whole multiple
of 10 (R154). -/
def CoarsePlace.tick (runTime : Nat) (c : CoarsePlace) : CoarsePlace :=
  if c.occupied && !c.paused && decide (c.deadline ≤ runTime) && runTime % 10 == 0 then { c with due := true } else c

/-- The service clock steps, or stays at its limit and sets the day-overrun flag (R156). -/
def Tiu.stepClock (t : Tiu) : Tiu :=
  match t.clock with
  | none => t
  | some c => if c < serviceMax then { t with clock := some (c + 1) } else { t with overrun := true }

/-- The running time steps and stays at its greatest value (4.5). -/
def stepRunTime (n : Nat) : Nat := min runTimeMax (n + 1)

/-- One tick of the whole node: channels, running time and coarse list, service clock (R148). At a running time that is
a non-zero multiple of 600 the trim of R159 falls due. -/
def State.tickAll (s : State) : State :=
  let rt := stepRunTime s.runTime
  let t := { s.tiu with
    chans := tickChannels s.tiu.chans
    coarse := s.tiu.coarse.map (CoarsePlace.tick rt)
    trimDue := s.tiu.trimDue || (rt != 0 && rt % 600 == 0) }
  { s with
    tiu := t.stepClock
    runTime := rt
    refMoment := s.tickStart + cyclesPerTick }

/-! ## Service clock (R157 to R159) -/

/-- The trim neighbours: the configured upstream and downstream nodes of direction UP (R158). -/
def State.trimNeighbours (s : State) : List Nat :=
  ([s.cfg.upstreamUp, s.cfg.downstreamUp].filter (fun n => n != 0)).eraseDups

/-- The neighbours of the node: upstream and downstream nodes in either direction (00 4). -/
def State.neighbours (s : State) : List Nat :=
  ([s.cfg.upstreamUp, s.cfg.downstreamUp, s.cfg.upstreamDown, s.cfg.downstreamDown].filter (fun n => n != 0)).eraseDups

/-- A STATUS may set this node's clock: from a neighbour, or at a console from a station node (R157; log 17). -/
def State.maySetClock (s : State) (sender : Nat) (b : StatusBody) : Bool :=
  if s.isStation then s.neighbours.contains sender else !b.console

/-- A clock in UNSET is set from a STATUS at a node whose REFERENCE setting is clear (R157). -/
def State.setClockFrom (s : State) (sender : Nat) (b : StatusBody) : State :=
  match s.tiu.clock, b.clock with
  | none, some t =>
    if !s.cfg.reference && s.maySetClock sender b then
      { s with tiu := { s.tiu with clock := some t, overrun := b.overrun } }
    else s
  | _, _ => s

/-- A trim offset from −50 to +50 ds replaces the kept one of that neighbour (R158). It is measured against this node's
service time at the reception (`stamp`), and kept with the running time at which it is taken (log 46). A STATUS received
while the clock was UNSET has no such service time and gives no offset (DESIGN CHOICE, log 73). -/
def State.keepOffset (s : State) (sender : Nat) (b : StatusBody) (stamp : Option Nat) : State :=
  match s.tiu.clock, stamp, b.clock with
  | some c, some received, some t =>
    let off : Int := (t : Int) - (received : Int)
    if s.isStation && !s.cfg.reference && s.trimNeighbours.contains sender && decide (c < serviceMax)
        && decide (-50 ≤ off ∧ off ≤ 50) then
      { s with tiu := { s.tiu with
          offsets := s.tiu.offsets.filter (fun o => o.node != sender)
            ++ [{ node := sender, offset := off, takenAt := s.runTime }] } }
    else s
  | _, _, _ => s

/-- The offset kept for a trim neighbour and taken no more than 600 ds earlier (R159). -/
def State.freshOffset (s : State) (n : Nat) : Option Int :=
  match s.tiu.offsets.find? (fun o => o.node == n) with
  | some o => if s.runTime ≤ o.takenAt + 600 then some o.offset else none
  | none => none

/-- The mean of the offsets truncated toward zero and clamped to [−2, +2] (R159). -/
def trimOf (offs : List Int) : Int := clampInt (-2) 2 ((offs.foldl (· + ·) 0).tdiv offs.length)

/-- The clock moves by the trim, stopping at 0 and at the limit, where the day-overrun flag is set (R159). -/
def Tiu.move (t : Tiu) (c : Nat) (m : Int) : Tiu :=
  let x : Int := (c : Int) + m
  if x < 0 then { t with clock := some 0 }
  else if (serviceMax : Int) < x then { t with clock := some serviceMax, overrun := true }
  else { t with clock := some x.toNat }

/-- The trim of R159, with its test; the kept offsets are discarded trimmed or not. -/
def State.trimClock (s : State) : State :=
  let done := fun (t : Tiu) => { s with tiu := { t with offsets := [], trimDue := false } }
  match s.tiu.clock with
  | none => done s.tiu
  | some c =>
    let ns := s.trimNeighbours
    let offs := ns.filterMap s.freshOffset
    if s.isStation && !s.cfg.reference && decide (c < serviceMax) && !ns.isEmpty && offs.length == ns.length then
      done (s.tiu.move c (trimOf offs))
    else done s.tiu

/-- DAY_START's effect on the clock (R157, R158). -/
def State.setClockTo (s : State) (t : Nat) : State :=
  { s with tiu := { s.tiu with clock := some t, overrun := false, offsets := [] } }

end Sys2Proof.Machine
end

