-- ==== Sys2Proof/Machine/LineBus.lean ====
section
/-! DEFINITION. Line Bus Controller (09): transmit queues, medium access, backoff, MUTE, plan sending, the receive
queue, neighbour presence. -/

namespace Sys2Proof.Machine

open Sys2Proof

/-! ## Counts -/

/-- The drops count steps by one (R172). -/
def State.stepDrops (s : State) : State := { s with lbc := { s.lbc with drops := stepCount s.lbc.drops } }

/-- The discards count steps by one (R167). -/
def State.stepDiscards (s : State) : State := { s with lbc := { s.lbc with discards := stepCount s.lbc.discards } }

/-- The overruns count steps by one (R169). -/
def State.stepOverruns (s : State) : State := { s with lbc := { s.lbc with overruns := stepCount s.lbc.overruns } }

/-! ## Transmit queues (R162) -/

/-- The queue of a class. -/
def Lbc.queue (l : Lbc) : TelegramClass → List TxItem
  | .alert => l.alertQ
  | .control => l.controlQ
  | .bulk => l.bulkQ

/-- The LBC with the queue of a class replaced. -/
def Lbc.setQueue (l : Lbc) (c : TelegramClass) (q : List TxItem) : Lbc :=
  match c with
  | .alert => { l with alertQ := q }
  | .control => { l with controlQ := q }
  | .bulk => { l with bulkQ := q }

/-- Greatest number of telegrams in a class's queue (Table 9-1). -/
def TelegramClass.room : TelegramClass → Nat
  | .alert => 8
  | .control => 16
  | .bulk => 4

/-- Gap of a class in bit times (Table 9-1). -/
def TelegramClass.gap : TelegramClass → Nat
  | .alert => 12
  | .control => 20
  | .bulk => 40

/-- What follows when a noted telegram or frame has gone, sent whole or dropped: the warm start of a RESTART_NODE
becomes due (R196). -/
def State.restartGone (s : State) (n : TxNote) : State :=
  match n with
  | .restart => if s.cfl.restart == .waiting then { s with cfl := { s.cfl with restart := .ready } } else s
  | .none | .plan => s

/-- What follows when a noted telegram is dropped: a console stops sending its plan (R176). -/
def State.noteDropped (s : State) (n : TxNote) : State :=
  match n with
  | .plan => { s with lbc := { s.lbc with outPlan := none } }
  | .none | .restart => s.restartGone n

/-- A queue entry is a STATUS. -/
def TxItem.isStatus (i : TxItem) : Bool :=
  match i.tg.body with
  | .status _ => true
  | _ => false

/-- A new STATUS takes the place of a queued one that has not started, keeping its place and attempt count; the
answer says whether there was one (R162). -/
def replaceStatus (x : TxItem) : List TxItem → Option (List TxItem)
  | [] => none
  | i :: is =>
    if i.isStatus && i.attempts == 0 then some ({ x with attempts := i.attempts } :: is)
    else (replaceStatus x is).map (i :: ·)

/-- The telegram joins the tail of its queue, or is dropped and counted when the queue is full (R162). -/
def State.joinQueue (s : State) (x : TxItem) : State :=
  let c := x.tg.body.cls
  let q := s.lbc.queue c
  if q.length < c.room then { s with lbc := s.lbc.setQueue c (q ++ [x]) } else s.stepDrops.noteDropped x.note

/-- The LBC places a telegram it transmits (R162). -/
def State.placeTelegram (s : State) (x : TxItem) : State :=
  if x.isStatus then
    match replaceStatus x s.lbc.controlQ with
    | some q => { s with lbc := { s.lbc with controlQ := q } }
    | none => s.joinQueue x
  else s.joinQueue x

/-- A block hands a telegram to the LBC (R161, R162): in LISTEN it is discarded without being counted, in MUTE it is
dropped and counted, except the probe. LOADING and CONFIG_FAULT transmit nothing. -/
def State.hand (s : State) (tg : Telegram) (note : TxNote := .none) (probe : Bool := false) : State :=
  if s.speaking then
    if s.lbc.mute && !probe then s.stepDrops.noteDropped note
    else s.placeTelegram { tg := tg, attempts := 0, backoff := false, probe := probe, note := note }
  else s

/-- A block sends a body to one node, or to all with target 0, as this node. -/
def State.send (s : State) (target : Nat) (b : Body) (note : TxNote := .none) : State :=
  s.hand { sender := s.cfg.node, target := target, body := b } note

/-! ## Medium access (R163, R164) -/

/-- Number k of the backoff (Table 9-3); `made` is the number of attempts already made. -/
def backoffStep (order : BackoffOrder) (node made : Nat) : Nat :=
  match order with
  | .priority => (node - 1) % 8 + 1
  | .rotating => (node + made) % 8 + 1

/-- The quiet a queue head needs before it starts, in bit times (R163, R164). -/
def State.quietNeeded (s : State) (c : TelegramClass) (x : TxItem) : Nat :=
  if x.backoff then c.gap + 16 * backoffStep s.cfg.backoff s.cfg.node (x.attempts - 1) else c.gap

/-- Bit times between two reference moments: one bit time is 2 µs, two cycles (9.1). -/
def bitTimes (fromM toM : Nat) : Nat := (toM - fromM) / 2

/-- 64 bit times have passed since the end of this node's previous PLAN_BLOCK (R163). -/
def State.blockGapOver (s : State) (m : Nat) : Bool :=
  match s.lbc.lastBlockEnd with
  | some e => decide (64 ≤ bitTimes e m)
  | none => true

/-- The head of a class's queue is ready to start, given the quiet measured at the moment (R163). -/
def State.headReady (s : State) (c : TelegramClass) (m quiet : Nat) : Bool :=
  match s.lbc.queue c with
  | [] => false
  | x :: _ => decide (s.quietNeeded c x ≤ quiet) && (c != .bulk || s.blockGapOver m)

/-- The class that starts: the highest with a ready head (R163). -/
def State.startClass (s : State) (m quiet : Nat) : Option TelegramClass :=
  [TelegramClass.alert, .control, .bulk].find? (fun c => s.headReady c m quiet)

/-- The head of a class's queue is changed. -/
def Lbc.updHead (l : Lbc) (c : TelegramClass) (f : TxItem → TxItem) : Lbc :=
  match l.queue c with
  | [] => l
  | x :: xs => l.setQueue c (f x :: xs)

/-- The head of a class's queue leaves. -/
def Lbc.popHead (l : Lbc) (c : TelegramClass) : Lbc := l.setQueue c ((l.queue c).drop 1)

/-- The line carried a bit at a moment. -/
def State.lineBit (s : State) (m : Nat) : State := { s with lbc := { s.lbc with lastBit := m } }

/-! ## MUTE and LINE_BUS_FAULT (R165, R166) -/

/-- The LINE_BUS_FAULT condition begins: the INU is asked to raise it. -/
def State.raiseLineFault (s : State) : State :=
  { s with lbc := { s.lbc with faultPresent := true } }.raise .lineBusFault Loc.none

/-- The LINE_BUS_FAULT condition ends: the INU is told. -/
def State.endLineFault (s : State) : State :=
  { s with lbc := { s.lbc with faultPresent := false } }.post (.condEnd .lineBusFault Loc.none)

/-- Greatest number of attempt drops whose times are kept (R165). -/
abbrev dropRoom : Nat := 3

/-- An attempt drop: the times of those of the last 600 ds are kept, at most three, and at the third within 600 ds the
fault is raised (R165). -/
def State.attemptDrop (s : State) : State :=
  let kept := s.lbc.dropTimes.filter (fun t => decide (s.runTime ≤ t + 600)) ++ [s.runTime]
  let times := kept.drop (kept.length - dropRoom)
  let s := { s with lbc := { s.lbc with dropTimes := times } }.stepDrops
  if times.length = dropRoom then s.raiseLineFault else s

/-- The telegrams of a queue are dropped one by one at the entry to MUTE (R166). -/
def State.dropAll (s : State) (q : List TxItem) : State :=
  q.foldl (fun s x => s.stepDrops.noteDropped x.note) s

/-- Entry to MUTE (R166). -/
def State.enterMute (s : State) : State :=
  let s := s.dropAll (s.lbc.alertQ ++ s.lbc.controlQ ++ s.lbc.bulkQ)
  { s with
    lbc := { s.lbc with
      alertQ := []
      controlQ := []
      bulkQ := []
      sending := none
      mute := true
      mutePeriods := 0 } }.raiseLineFault

/-- The echo of a start has been seen: the echo fault count becomes 0, and a node in MUTE leaves it; its probe is
from then on a STATUS as any other (R166). -/
def State.echoHeard (s : State) : State :=
  let s1 := { s with lbc := { s.lbc with echoFaults := 0, sending := s.lbc.sending.map (fun x => (x.1, true)) } }
  if s.lbc.mute then
    ({ s1 with
      lbc := { s1.lbc with
        mute := false
        mutePeriods := 0
        controlQ := s1.lbc.controlQ.map (fun x => { x with probe := false }) } } : State).endLineFault
  else s1

/-- A start at moment m (R163): BUS_DE is driven, the attempt count becomes 1 at the first start. -/
def State.beginSending (s : State) (c : TelegramClass) (m : Nat) : State :=
  { s with
    lbc := { s.lbc.updHead c (fun x => { x with attempts := max 1 x.attempts, backoff := false }) with
      sending := some (c, false)
      startedAt := m }
    pins := { s.pins with busDe := true } }

/-- Sending has stopped: BUS_DE is deasserted (R198). -/
def State.endSending (s : State) : State :=
  { s with lbc := { s.lbc with sending := none }, pins := { s.pins with busDe := false } }

/-- The head of a class goes into backoff with its attempt count stepped, or is dropped after 16 attempts (R164). -/
def State.backOff (s : State) (c : TelegramClass) : State :=
  match s.lbc.queue c with
  | [] => s
  | x :: _ =>
    if 16 ≤ x.attempts then { s with lbc := s.lbc.popHead c }.attemptDrop.noteDropped x.note
    else { s with lbc := s.lbc.updHead c (fun x => { x with attempts := x.attempts + 1, backoff := true }) }

/-- TRANSMIT_START (R163): the quiet is what the line shows, and no longer than since the last bit this node knows of;
`echoed` says whether the echo of the first bit follows within 24 bit times (R166; log 6). A start counts as a bit on the
line, so the next quiet is measured from it, even when its echo never comes (DESIGN CHOICE, log 63). -/
def State.transmit (s : State) (m quiet : Nat) (echoed : Bool) : State :=
  let q := min quiet (bitTimes s.lbc.lastBit m)
  if s.speaking && s.lbc.sending.isNone then
    match s.startClass m q with
    | some c => if echoed then ((s.beginSending c m).lineBit m).echoHeard else (s.beginSending c m).lineBit m
    | none => s
  else s

/-! ## A plan sent by a console node (R176) -/

/-- Number of blocks of a plan: entries divided by 8, rounded up. -/
def planBlocks (n : Nat) : Nat := ceilDiv n 8

/-- The entries of block i of the outgoing buffer. -/
def State.blockEntries (s : State) (i : Nat) : List PlanEntry :=
  ((s.ttu.launch.drop (8 * i)).take 8).map (·.plan)

/-- Hands the telegram of a stage of the plan. -/
def State.handStage (s : State) (o : OutPlan) : State :=
  let n := s.ttu.launch.length
  let s1 := { s with lbc := { s.lbc with outPlan := some o } }
  match o.stage with
  | .opening => s1.send o.target (.planOpen o.planId (planBlocks n) (n % 8)) .plan
  | .block i => s1.send o.target (.planBlock o.planId i (s.blockEntries i)) .plan
  | .closing => s1.send o.target (.planClose o.planId n) .plan

/-- The stage after one has been sent whole; none after PLAN_CLOSE. -/
def PlanStage.next (blocks : Nat) : PlanStage → Option PlanStage
  | .opening => some (.block 0)
  | .block i => if i + 1 < blocks then some (.block (i + 1)) else some .closing
  | .closing => none

/-- A telegram of the plan has been sent whole: the next is handed. -/
def State.planSent (s : State) : State :=
  match s.lbc.outPlan with
  | none => s
  | some o =>
    match o.stage.next (planBlocks s.ttu.launch.length) with
    | some st => s.handStage { o with stage := st }
    | none => { s with lbc := { s.lbc with outPlan := none } }

/-! ## Ends of a start (R164, R166) -/

/-- What follows when a noted telegram has been sent whole. -/
def State.noteSent (s : State) (n : TxNote) : State :=
  match n with
  | .plan => s.planSent
  | .none | .restart => s.restartGone n

/-- A telegram sent whole leaves its queue (R164). Its echo has been seen: a start with no echo is an echo fault (R166).
-/
def State.sentWhole (s : State) (m : Nat) : State :=
  match s.lbc.sending with
  | none => s
  | some (c, _) =>
    match s.lbc.queue c with
    | [] => s
    | x :: _ =>
      let s := s.endSending.lineBit m
      let s := { s with lbc := s.lbc.popHead c }
      let s := if c == .bulk then { s with lbc := { s.lbc with lastBlockEnd := some m } } else s
      s.noteSent x.note

/-- A collision (R164): sending stops and the telegram goes into backoff. -/
def State.collide (s : State) (m : Nat) : State :=
  match s.lbc.sending with
  | none => s
  | some (c, _) => (s.endSending.lineBit m).backOff c

/-- An echo fault (R166): the attempt ends as a collision does; a probe is discarded without a retry; the third in a
row enters MUTE. -/
def State.faultEcho (s : State) : State :=
  match s.lbc.sending with
  | some (c, false) =>
    match s.lbc.queue c with
    | [] => s
    | x :: _ =>
      let s1 := s.endSending
      if x.probe then { s1 with lbc := s1.lbc.popHead c }
      else
        let s2 := s1.backOff c
        let s3 := { s2 with lbc := { s2.lbc with echoFaults := s2.lbc.echoFaults + 1 } }
        if !s3.lbc.mute && decide (3 ≤ s3.lbc.echoFaults) then s3.enterMute else s3
  | _ => s

/-- 600 ds of running time have passed with no attempt drop (R165). -/
def State.quietOfDrops (s : State) : Bool := s.lbc.dropTimes.all (fun t => decide (t + 600 ≤ s.runTime))

/-! ## Receiving (R167 to R170) -/

/-- The watched nodes of a station node: its neighbours and the partner nodes of its section records (R168). -/
def State.watchedNodes (s : State) : List Nat :=
  if s.isStation then
    (s.neighbours ++ (s.cfg.sections.map (·.partner)).filter (fun n => n != 0)).eraseDups
  else []

/-- Every watched node is ABSENT with no last-heard time and no STATUS (R170, R177). -/
def State.initWatched (s : State) : State :=
  { s with lbc := { s.lbc with watched := s.watchedNodes.map (fun n =>
      { node := n, present := false, lastHeard := none, latest := none }) } }

/-- What the LBC keeps of a watched node. -/
def State.watch (s : State) (n : Nat) : Option Watched := s.lbc.watched.find? (fun w => w.node == n)

/-- A node is PRESENT. -/
def State.present (s : State) (n : Nat) : Bool :=
  match s.watch n with
  | some w => w.present
  | none => false

/-- Changes what the LBC keeps of a watched node. -/
def State.updWatch (s : State) (n : Nat) (f : Watched → Watched) : State :=
  { s with lbc := { s.lbc with watched := s.lbc.watched.map (fun w => if w.node == n then f w else w) } }

/-- The latest STATUS of a watched node when it was received no more than 50 ds before (R25, R144). -/
def State.freshStatus (s : State) (n : Nat) : Option StatusBody :=
  match (s.watch n).bind (·.latest) with
  | some (t, b) => if s.runTime ≤ t + 50 then some b else none
  | none => none

/-- The telegram at the head of the receive queue leaves it. -/
def State.popRx (s : State) : State := { s with lbc := { s.lbc with rx := s.lbc.rx.drop 1 } }

/-- A telegram is for this node: targeted at it, or broadcast. In CONSOLE role a telegram targeted at another node is
handed only to the forwarding (R168). -/
def State.forMe (s : State) (t : Telegram) : Bool := t.target == 0 || t.target == s.cfg.node

/-- Takes the telegram at the head of the receive queue when it is of the kind named; otherwise the event does not
arise (log 1). -/
def State.takeTelegram (s : State) (want : Body → Bool) (f : Received → State → State) : State :=
  match s.lbc.rx with
  | [] => s
  | r :: _ => if want r.tg.body then f r s.popRx else s

/-! ## Plan result -/

/-- The plan result is set and any transfer record ends, with the staging list emptied and both its marks clear: R17
says that the list is emptied at the end and leaves the marks' fate open until PLAN_OPEN clears them (DESIGN CHOICE, log
45). -/
def State.endTransfer (s : State) (r : PlanResult) : State :=
  { s with
    lbc := { s.lbc with transfer := none, planResult := r }
    ttu := { s.ttu with staging := [], overfull := false, invalid := false } }

end Sys2Proof.Machine
end

