-- ==== Sys2Proof/Machine/Link.lean ====
section
/-! DEFINITION. Station Link Controller (10): field commands, sweeps, the link's state, the field image, the track input
filters. -/

namespace Sys2Proof.Machine

open Sys2Proof

/-! ## Field commands (R185, R186) -/

/-- Urgent commands (Table 10-5). -/
def FieldCmd.urgent : FieldCmd → Bool
  | .authority .. | .breaker .. | .sweepAsk .. => true
  | .display .. | .view .. => false

/-- The command FIFO's places (R185). -/
abbrev cmdRoom : Nat := 32

/-- Among the commands that have not started, an urgent one goes behind the last urgent one and ahead of every routine
one (R185). -/
def insertUrgent (x : CmdItem) : List CmdItem → List CmdItem
  | [] => [x]
  | y :: ys => if y.cmd.urgent then y :: insertUrgent x ys else x :: y :: ys

/-- A command takes a place among commands none of which has started: an urgent one behind the last urgent one and ahead
of every routine one, a routine one at the tail (R185). -/
def placeWaiting (x : CmdItem) (l : List CmdItem) : List CmdItem :=
  if x.cmd.urgent then insertUrgent x l else l ++ [x]

/-- A command takes a place behind the head, which is being sent and is not overtaken; with none there it is sent at once
(R185, R186). -/
def placeCmd (x : CmdItem) : List CmdItem → List CmdItem
  | [] => [x]
  | h :: t => h :: placeWaiting x t

/-- A command as it is placed: a SWEEP_ASK takes the lost-report count as it stands then (R184, R185). -/
def State.asPlaced (s : State) (c : FieldCmd) : FieldCmd :=
  match c with
  | .sweepAsk r _ => .sweepAsk r s.slc.lostReports
  | .authority .. | .breaker .. | .display .. | .view .. => c

/-- Places a command in the FIFO, by `place`; a DISPLAY becomes the line last sent (R145). -/
def State.placeBy (s : State) (place : CmdItem → List CmdItem → List CmdItem) (c : FieldCmd) (note : TxNote := .none) :
    State :=
  let s1 := { s with slc := { s.slc with cmds := place { cmd := s.asPlaced c, note := note } s.slc.cmds } }
  match c with
  | .display p l => { s1 with anu := { s.anu with lastLines := s.anu.lastLines.set p (some l) } }
  | .authority .. | .breaker .. | .sweepAsk .. | .view .. => s1

/-- Places a command while the head is being sent. -/
def State.placeCommand (s : State) (c : FieldCmd) (note : TxNote := .none) : State := s.placeBy placeCmd c note

/-- A held DISPLAY of platform p. -/
def FieldCmd.isDisplay (p : Nat) : FieldCmd → Bool
  | .display q _ => q == p
  | _ => false

/-- A SWEEP_ASK. -/
def FieldCmd.isSweepAsk : FieldCmd → Bool
  | .sweepAsk .. => true
  | _ => false

/-- Holds a command for its producer: at most one DISPLAY for each platform, a newer line replacing the held one, and
at most one SWEEP_ASK (R185). -/
def holdCmd (c : FieldCmd) (held : List FieldCmd) : List FieldCmd :=
  match c with
  | .display p l =>
    if held.any (FieldCmd.isDisplay p) then held.map (fun x => if x.isDisplay p then .display p l else x)
    else held ++ [c]
  | .sweepAsk .. => if held.any FieldCmd.isSweepAsk then held else held ++ [c]
  | .authority .. | .breaker .. | .view .. => held ++ [c]

/-- A block hands a command to the SLC (R185). A node in CONFIG_FAULT sends none (R197). -/
def State.command (s : State) (c : FieldCmd) : State :=
  if s.cfl.start == .configFault then s
  else if s.slc.cmds.length < cmdRoom then s.placeCommand c
  else { s with slc := { s.slc with held := holdCmd c s.slc.held } }

/-- The held command that takes a freed place: the oldest urgent one, or else the oldest routine one (R185). -/
def nextHeld (held : List FieldCmd) : Option FieldCmd :=
  match held.find? FieldCmd.urgent with
  | some c => some c
  | none => held.head?

/-- A held DISPLAY that equals the line last sent when its turn comes is not sent (R145; log 22). -/
def State.staleDisplay (s : State) (c : FieldCmd) : Bool :=
  match c with
  | .display p l => s.anu.lastLines.getD p none == some l
  | _ => false

/-- Held commands take the places that are free, before the next head is sent, so that a held urgent command goes ahead of
every routine one (R185); `fuel` is their number. -/
def State.fillPlaces : Nat → State → State
  | 0, s => s
  | fuel + 1, s =>
    if s.slc.cmds.length < cmdRoom then
      match nextHeld s.slc.held with
      | none => s
      | some c =>
        let s1 := { s with slc := { s.slc with held := s.slc.held.erase c } }
        State.fillPlaces fuel (if s.staleDisplay c then s1 else s1.placeBy placeWaiting c)
    else s

/-- The head's frame has been sent whole: it leaves, and a held command takes the freed place, so that an urgent one
handed meanwhile is sent next (R185, R186). A VIEW that carries the ANSWER to a console's own RESTART_NODE brings the
warm start as it leaves (DESIGN CHOICE, log 82). -/
def State.commandSent (s : State) : State :=
  match s.slc.cmds with
  | [] => s
  | x :: xs =>
    let s := ({ s with slc := { s.slc with cmds := xs } } : State).restartGone x.note
    s.fillPlaces s.slc.held.length

/-- A VIEW to the workstation, with both counts; one that finds the FIFO full is dropped and counted (R188), and a
warm start that waits for it follows (DESIGN CHOICE, log 82). Both counts are those of the moment at which the VIEW is
placed; R188 does not say when they are taken (DESIGN CHOICE, log 86). -/
def State.view (s : State) (v : ViewContent) (note : TxNote := .none) : State :=
  if s.slc.cmds.length < cmdRoom then
    s.placeCommand (.view s.slc.viewsLost s.slc.lostReports v) note
  else ({ s with slc := { s.slc with viewsLost := stepCount s.slc.viewsLost } } : State).restartGone note

/-- AUTHORITY OFF for a platform. -/
def State.authorityOff (s : State) (p : Nat) : State := s.command (.authority p false)

/-! ## Sweeps (R184) -/

/-- SWEEP_ASK is queued with the reason of the latest request, and the wait end is 50 ds ahead. -/
def State.askSweep (s : State) : State :=
  let s := s.command (.sweepAsk s.slc.reason s.slc.lostReports)
  { s with slc := { s.slc with sweep := .asked, waitEnd := some (s.runTime + 50) } }

/-- A sweep request (Table 10-4). A node in CONSOLE role makes none, and a node in CONFIG_FAULT commands nothing. -/
def State.requestSweep (s : State) (r : SweepReason) : State :=
  if s.isStation && s.cfl.start != .configFault then
    match s.slc.sweep with
    | .idle => ({ s with slc := { s.slc with reason := r } } : State).askSweep
    | .asked => s
    | .sweeping => { s with slc := { s.slc with again := true, reason := r } }
  else s

/-- SWEEP_BEGIN taken (Table 10-4). -/
def State.beginSweep (s : State) : State :=
  { s with slc := { s.slc with sweep := .sweeping, waitEnd := some (s.runTime + 100) } }

/-- SWEEP_END taken (Table 10-4). The request made again carries the reason of the request that set the mark. -/
def State.endSweep (s : State) : State :=
  match s.slc.sweep with
  | .sweeping =>
    let s1 := { s with slc := { s.slc with sweep := .idle, again := false, waitEnd := none } }
    if s.slc.again then s1.requestSweep s1.slc.reason else s1
  | .idle | .asked => s

/-- The sweep wait end is reached (Table 10-4). SWEEP_ASK goes out again with the reason of the latest request (log 41).
So it does at a node whose image says CONSOLE, for a sweep asked in LOADING while the role was not known (DESIGN CHOICE,
log 64). -/
def State.sweepOverdue (s : State) : State :=
  match s.slc.sweep with
  | .idle => s
  | .asked | .sweeping => if s.reachedOpt s.slc.waitEnd then s.askSweep else s

/-! ## The link (R180, R181) -/

/-- The link enters LOST: every point stale, the sweep IDLE, departures held, STATION_LINK_LOST raised (R180). -/
def State.loseLink (s : State) : State :=
  match s.slc.link with
  | .lost => s
  | .up =>
    (({ s with
        slc := { s.slc with
          link := .lost
          image := s.slc.image.map (fun v => { v with stale := true })
          sweep := .idle
          again := if s.slc.sweep == .idle then s.slc.again else false
          waitEnd := none } } : State).post .holdRecompute).raise .stationLinkLost Loc.none

/-- The link enters UP: a sweep is asked with reason RESTORE, before the frame that restores the link is taken, and the
RGE and the INU are told (R181). -/
def State.restoreLink (s : State) : State :=
  match s.slc.link with
  | .up => s
  | .lost =>
    (((({ s with slc := { s.slc with link := .up } } : State).requestSweep .restore).post
      (.condEnd .stationLinkLost Loc.none)).post .holdRecompute)

/-! ## Reports (R182, R183) -/

/-- The report FIFO's places. -/
abbrev reportRoom : Nat := 32

/-- A valid report joins the FIFO, or is lost and counted, with an OVERRUN sweep request (R182, R183). -/
def State.joinReports (s : State) (r : Report) : State :=
  if s.slc.reports.length < reportRoom then { s with slc := { s.slc with reports := s.slc.reports ++ [r] } }
  else ({ s with slc := { s.slc with lostReports := stepCount s.slc.lostReports } } : State).requestSweep .overrun

/-- Takes the report at the head of the FIFO when it is of the kind named; otherwise the event does not arise. -/
def State.takeReport (s : State) (want : Report → Bool) (f : Report → State → State) : State :=
  match s.slc.reports with
  | [] => s
  | r :: rs => if want r then f r { s with slc := { s.slc with reports := rs } } else s

/-- Point n of the field image. -/
def State.imagePoint (s : State) (n : Nat) : PointVal := s.slc.image.getD n { value := none, stale := true }

/-- A POINT report sets the point's value and clears its stale flag (R182). -/
def State.setPoint (s : State) (n v : Nat) : State :=
  { s with slc := { s.slc with image := s.slc.image.set n { value := some v, stale := false } } }

/-- The use of a point. -/
def State.pointUse (s : State) (n : Nat) : PointUse := s.cfg.points.getD n .unassigned

/-! ## Track inputs (R178, R179) -/

/-- The filter of input i. -/
def State.track (s : State) (i : Nat) : TrackDyn := s.slc.tracks.getD i .cold

/-- Changes the filter of input i. -/
def State.updTrack (s : State) (i : Nat) (f : TrackDyn → TrackDyn) : State :=
  { s with slc := { s.slc with tracks := s.slc.tracks.modify i f } }

/-- The configuration of input i; unused when none is configured. -/
def State.trackCfg (s : State) (i : Nat) : TrackCfg :=
  s.cfg.tracks.getD i { use := .unused, activeLow := false, filter := 0 }

/-- The input is assigned and its filter runs (R178, R179). -/
def State.sampled (s : State) (i : Nat) : Bool := s.slc.filtersOn && (s.trackCfg i).use != .unused

/-- ACTIVE or not, for an electrical level and the input's polarity (Table 10-1). -/
def State.isActive (s : State) (i : Nat) (high : Bool) : Bool := high != (s.trackCfg i).activeLow

/-- A raw level change of a sampled input (R178, R179): a change away from the accepted level starts a candidate, a
return discards it; while the first candidate stands, a change starts a new first candidate. -/
def State.rawChange (s : State) (i m : Nat) (active : Bool) : State :=
  let fresh : Candidate := { active := active, began := m, stamp := s.now }
  s.updTrack i (fun t =>
    match t.accepted with
    | none => { t with candidate := some fresh }
    | some a => if a == active then { t with candidate := none } else { t with candidate := some fresh })

/-- TRACK_INPUT_CHANGE: the pin's level changes; a pin already at the level gives no event. -/
def State.pinChange (s : State) (i m : Nat) (high : Bool) : State :=
  if i < 8 ∧ s.pins.trk.getD i false ≠ high then
    let s := { s with pins := { s.pins with trk := s.pins.trk.set i high } }
    if s.sampled i then s.rawChange i m (s.isActive i high) else s
  else s

/-- Cycles of an input's filter time: steps of 20 ms at 1 MHz (Table 10-1, R178). -/
def State.filterCycles (s : State) (i : Nat) : Nat := (s.trackCfg i).filter * 20000

/-- The candidate of input i held for the filter time by moment m, when it has the level and the first-level mark
wanted. -/
def State.acceptable (s : State) (i m : Nat) (first : Bool) : Option Candidate :=
  let t := s.track i
  match t.candidate with
  | some c => if s.sampled i && t.firstMark == first && decide (c.began + s.filterCycles i ≤ m) then some c else none
  | none => none

/-- The candidate's level becomes the accepted level and the candidate is discarded; the first-level mark is clear
(R178, R179). -/
def State.acceptLevel (s : State) (i : Nat) (c : Candidate) : State :=
  s.updTrack i (fun t => { t with accepted := some c.active, candidate := none, firstMark := false })

/-- Entry to LISTEN: each assigned input has no accepted level, its first-level mark set, and a first candidate for the
raw level seen then (R179). -/
def State.startFilters (s : State) : State :=
  if s.isStation then
    { s with slc := { s.slc with
        filtersOn := true
        tracks := (List.range 8).map (fun i =>
          if (s.trackCfg i).use == .unused then TrackDyn.cold
          else
            { accepted := none
              candidate := some { active := s.isActive i (s.pins.trk.getD i false), began := s.refMoment, stamp := s.now }
              firstMark := true }) } }
  else s

end Sys2Proof.Machine
end

