-- ==== Sys2Proof/Machine/Trains.lean ====
section
/-! DEFINITION. Train Table Unit (01): creation and removal of records, berth matching, turnback conversion, the launch
and staging lists. -/

namespace Sys2Proof.Machine

open Sys2Proof

/-! ## Order and planned times (R8, R10) -/

/-- A platform receives a direction: its own, or at a turnback platform the opposite one (R8). -/
def platformReceives (c : PlatformCfg) (d : Dir) : Bool := if c.turnback then c.dir == d.opp else c.dir == d

/-- Platform p is configured and receives direction d. -/
def State.receives (s : State) (p : Nat) (d : Dir) : Bool :=
  match s.pcfg p with
  | some c => platformReceives c d
  | none => false

/-- The direction of the trains that arrive at a platform (R10). -/
def arrivalDirOf (c : PlatformCfg) : Dir := if c.turnback then c.dir.opp else c.dir

/-- The candidate platform of a direction: the lowest-indexed one that receives it (R8). -/
def State.candidatePlatform (s : State) (d : Dir) : Option Nat := s.platforms.find? (fun p => s.receives p d)

/-- A record is older than another by receive sequence; one with a sequence ranks before one without (R10). -/
def olderRec (a b : TrainRec) : Bool :=
  match a.recvSeq, b.recvSeq with
  | some x, some y => seqNewer x y
  | some _, none => true
  | none, _ => false

/-- The oldest of records listed in order of creation (R10). Where the sequences run in a ring, none older than all
others, the spec names none: the list is gone through in order of creation, and a record takes the place of the one kept
when it is older than that (DESIGN CHOICE, log 53). -/
def oldestOf (rs : List TrainRec) : Option TrainRec :=
  rs.foldl (fun best r =>
    match best with
    | none => some r
    | some b => if olderRec r b then some r else best) none

/-- The APPROACHING records of a direction. -/
def State.approaching (s : State) (d : Dir) : List TrainRec :=
  s.ttu.table.filter (fun r => r.state == .approaching && r.dir == d)

/-- The oldest APPROACHING record of a direction. -/
def State.oldestApproaching (s : State) (d : Dir) : Option TrainRec := oldestOf (s.approaching d)

/-- Inserts a record among records oldest first. -/
def insertByAge (r : TrainRec) : List TrainRec → List TrainRec
  | [] => [r]
  | x :: xs => if olderRec r x then r :: x :: xs else x :: insertByAge r xs

/-- Records oldest first (R10, R144); in a ring of sequences, by insertion in order of creation (DESIGN CHOICE, log 53).
-/
def sortByAge (rs : List TrainRec) : List TrainRec := rs.foldl (fun acc r => insertByAge r acc) []

/-- Planned arrival and departure at platform p (R8). -/
def planAt (c : PlatformCfg) (r : TrainRec) : Int × Int :=
  if r.converted then ((r.origin : Int) - c.dp, (r.origin : Int))
  else ((r.origin : Int) + c.offset, (r.origin : Int) + c.offset + c.dp)

/-- Planned arrival Pa and planned departure Pd of a record: at its platform, or at its candidate platform (R8). -/
def State.plan (s : State) (r : TrainRec) : Option (Int × Int) :=
  match r.platform with
  | some p => (s.pcfg p).map (fun c => planAt c r)
  | none => ((s.candidatePlatform r.dir).bind s.pcfg).map (fun c => planAt c r)

/-- Predicted arrival of an APPROACHING record: Pa, and lateness × 10 when present (R8). -/
def State.predictedArrival (s : State) (r : TrainRec) : Option Int :=
  (s.plan r).map (fun x => x.1 + (match r.lateness with | some l => l * 10 | none => 0))

/-! ## Creation and removal (R1 to R3, R5) -/

/-- Answer to a creation request (R1). -/
inductive CreateResult where
  | created (tag : Nat)
  | duplicate
  | full
  deriving DecidableEq, Repr

/-- Greatest number of train records. -/
abbrev tableRoom : Nat := 16

/-- The tag counter steps past values that records in the table carry (R2); 17 steps always find one. -/
def freshTag (table : List TrainRec) : Nat → Nat → Nat
  | 0, c => c
  | fuel + 1, c => if table.any (fun r => r.tag == c) then freshTag table fuel ((c + 1) % 65536) else c

/-- A record with every optional field absent and every flag clear (R5). -/
def TrainRec.blank (run : Nat) (d : Dir) (st : TrainState) : TrainRec :=
  { run := run, dir := d, state := st, origin := 0, dest := 0, pclass := 0, lateness := none, recvSeq := none,
    aa := none, tr := none, grantTime := none, platform := none, consoleHold := false, announcedApproach := false,
    announcedHeld := false, regenMatched := false, departedWithout := false, withdraw := false, incRef := none,
    tag := 0, converted := false }

/-- A creation request: DUPLICATE is tested first, then FULL; a refused request changes nothing (R1). The record joins
the table with a fresh tag (R2). -/
def State.createRec (s : State) (r : TrainRec) : State × CreateResult :=
  if r.run != 0 && s.runCarried r.run then (s, .duplicate)
  else if tableRoom ≤ s.ttu.table.length then (s, .full)
  else
    let t := freshTag s.ttu.table 17 s.ttu.tagCtr
    let grown := s.ttu.table ++ [{ r with tag := t }]
    ({ s with ttu := { s.ttu with table := grown, tagCtr := freshTag grown 17 ((t + 1) % 65536) } }, .created t)

/-- The takeover and rebuild rows of R5: the record as carried, APPROACHING, with its sequence. -/
def recOfCarried (c : Carried) (seq : Nat) : TrainRec :=
  { TrainRec.blank c.run c.dir .approaching with
    origin := c.origin
    dest := c.dest
    pclass := c.pclass
    lateness := c.lateness
    recvSeq := some seq
    consoleHold := c.consoleHold
    withdraw := c.withdraw
    departedWithout := c.departedWithout
    incRef := c.incRef }

/-- Removes a record: its place and tag are free, a platform it occupied has no occupying record, its occupancy left as
it is, and the RGE, HOE and ANU are told (R3). Dropped when the tag is gone. -/
def State.removeRec (s : State) (tag : Nat) : State :=
  match s.recOf tag with
  | some r =>
    ({ s with ttu := { s.ttu with
        table := s.ttu.table.filter (fun r => r.tag != tag)
        plats := s.ttu.plats.map (fun d => if d.occupant == some tag then { d with occupant := none } else d) } }
      : State).post (.tagGone tag r.run)
  | none => s

/-! ## Turnback conversion (R16) -/

/-- Takes the PENDING entries for p in launch list order: entries whose run another record carries become CANCELLED, and
the first other one becomes LAUNCHED and is used. Answers the list, the entry used, and the runs in conflict. -/
def useLaunch (carried : Nat → Bool) (p : Nat) : List LaunchEntry → List LaunchEntry × Option PlanEntry × List Nat
  | [] => ([], none, [])
  | e :: es =>
    if e.state == .pending && e.plan.platform == p then
      if carried e.plan.run then
        let r := useLaunch carried p es
        ({ e with state := .cancelled } :: r.1, r.2.1, e.plan.run :: r.2.2)
      else ({ e with state := .launched } :: es, some e.plan, [])
    else
      let r := useLaunch carried p es
      (e :: r.1, r.2)

/-- The record becomes the run of the entry used, DWELLING (R16 2). -/
def TrainRec.convert (r : TrainRec) (d : Dir) (e : PlanEntry) : TrainRec :=
  { r with
    run := e.run
    dir := d
    origin := e.departure
    dest := e.dest
    pclass := e.pclass
    lateness := none
    recvSeq := none
    incRef := none
    state := .dwelling
    converted := true }

/-- With no PENDING entry left the record becomes SPARE, run 000 (R16). -/
def TrainRec.toSpare (r : TrainRec) : TrainRec :=
  { r with run := 0, dest := 0, pclass := 0, lateness := none, recvSeq := none, incRef := none, state := .spare }

/-- Conversion of the record at turnback platform p (R16). In RUNNING the RGE begins the computation; a rebuild's
computations begin at the entry to RUNNING (R23). -/
def State.convert (s : State) (p tag : Nat) : State :=
  match s.pcfg p with
  | none => s
  | some c =>
    let r := useLaunch (fun run => s.runCarriedByOther run tag) p s.ttu.launch
    let s1 := r.2.2.foldl (fun s run => s.raise .runConflict (Loc.ofRunAt run p))
      { s with ttu := { s.ttu with launch := r.1 } }
    match r.2.1 with
    | some e =>
      let s2 := s1.updRec tag (fun x => x.convert c.dir e)
      if s2.isRunning then s2.post (.compute p tag) else s2
    | none => s1.updRec tag TrainRec.toSpare

/-! ## Berths (R9 to R12, R14) -/

/-- Berth rise's effect on the occupancy (R9). -/
def State.occupy (s : State) (p : Nat) (stamp : Option Nat) : State :=
  s.updPlat p (fun d => { d with occupied := true, since := stamp })

/-- Berth fall's effect on the occupancy (R9). -/
def State.vacate (s : State) (p : Nat) : State := s.updPlat p (fun d => { d with occupied := false, since := none })

/-- The occupying record of platform p becomes the record tagged. -/
def State.setOccupant (s : State) (p : Nat) (tag : Option Nat) : State := s.updPlat p (fun d => { d with occupant := tag })

/-- Arrival capture (R10, R11): platform index, flags cleared, Aa and arrival lateness. -/
def TrainRec.arrive (r : TrainRec) (p : Nat) (c : PlatformCfg) (stamp : Option Nat) : TrainRec :=
  { r with
    platform := some p
    announcedHeld := false
    regenMatched := false
    departedWithout := false
    aa := stamp
    lateness := stamp.map (fun a => latenessOf ((a : Int) - (planAt c r).1)) }

/-- A record takes the berth of platform p (R10): SPARE when withdrawn, converted at a turnback platform, otherwise
DWELLING with its computation begun. The HOE is told. -/
def State.takeBerth (s : State) (p : Nat) (c : PlatformCfg) (r : TrainRec) (stamp : Option Nat) : State :=
  let s1 := ((s.updRec r.tag (fun x => x.arrive p c stamp)).setOccupant p (some r.tag)).post (.tookBerth r.tag r.run)
  if r.withdraw then s1.moveRec r.tag .approaching .spare
  else if c.turnback then s1.convert p r.tag
  else (s1.moveRec r.tag .approaching .dwelling).post (.compute p r.tag)

/-- An unknown arrival at platform p with captured arrival aa (R12): UNKNOWN_ARRIVAL, and a SPARE record when the table
has room, converted at a turnback platform. -/
def State.unknownArrival (s : State) (p : Nat) (c : PlatformCfg) (aa : Option Nat) : State :=
  let s1 := s.raise .unknownArrival (Loc.ofPlatform p)
  let r : TrainRec :=
    { TrainRec.blank 0 (arrivalDirOf c) .spare with
      origin := aa.getD 0
      platform := some p
      aa := aa }
  match s1.createRec r with
  | (s2, .created t) =>
    let s3 := s2.setOccupant p (some t)
    if c.turnback then s3.convert p t else s3
  | (s2, _) => s2

/-- A berth rise at platform p, with its stamp (R9, R10, R12). Before RUNNING it changes the occupancy only. -/
def State.riseAt (s : State) (p : Nat) (stamp : Option Nat) : State :=
  match s.pcfg p with
  | none => s
  | some c =>
    let s1 := s.occupy p stamp
    if s1.isRunning then
      match s1.oldestApproaching (arrivalDirOf c) with
      | some r => s1.takeBerth p c r stamp
      | none => s1.unknownArrival p c stamp
    else s1

/-- The first filtered level of the berth input of platform p (R9): a first level taken in RUNNING is an edge. -/
def State.firstBerthLevel (s : State) (p : Nat) (active : Bool) (stamp : Option Nat) : State :=
  if s.isRunning then if active then s.riseAt p stamp else s
  else if active then s.occupy p stamp
  else s.vacate p

/-! ## Staging and launch lists (R15, R17, R18, R22) -/

/-- Greatest number of entries of the launch and staging lists. -/
abbrev launchRoom : Nat := 512

/-- An entry is faulty (R17): run 000, a platform that is no turnback platform of this node, a destination above 31 or a
class above 3. -/
def State.faultyEntry (s : State) (e : PlanEntry) : Bool :=
  e.run == 0 || decide (31 < e.dest) || decide (3 < e.pclass) ||
    match s.pcfg e.platform with
    | some c => !c.turnback
    | none => true

/-- One entry arrives at the staging list (R17): a faulty one sets `invalid`, one too many sets `overfull`; neither is
stored. -/
def State.stage (s : State) (e : PlanEntry) : State :=
  if s.faultyEntry e then
    let s1 := { s with ttu := { s.ttu with invalid := true } }
    if launchRoom ≤ s.ttu.staging.length then { s1 with ttu := { s1.ttu with overfull := true } } else s1
  else if launchRoom ≤ s.ttu.staging.length then { s with ttu := { s.ttu with overfull := true } }
  else { s with ttu := { s.ttu with staging := s.ttu.staging ++ [e] } }

/-- Empties the staging list and clears its marks (R17). -/
def State.clearStaging (s : State) : State :=
  { s with ttu := { s.ttu with staging := [], overfull := false, invalid := false } }

/-- A run number appears twice. -/
def hasTwice : List Nat → Bool
  | [] => false
  | x :: xs => xs.contains x || hasTwice xs

/-- Drops the CANCELLED entry with the earliest planned departure (R18), which is the first one in list order. R18
does not say which of several of equal departure goes: the one that stands first in the list (DESIGN CHOICE, log 11).
-/
def dropCancelled : List LaunchEntry → List LaunchEntry
  | [] => []
  | e :: es => if e.state == .cancelled then es else e :: dropCancelled es

/-- While the size with the staged entries exceeds 512 and a CANCELLED entry remains, one is dropped (R18); `fuel` is
the list's length. -/
def shrinkLaunch (staged : Nat) : Nat → List LaunchEntry → List LaunchEntry
  | 0, l => l
  | fuel + 1, l =>
    if launchRoom < staged + l.length && l.any (fun e => e.state == .cancelled) then
      shrinkLaunch staged fuel (dropCancelled l)
    else l

/-- Inserts a staged entry in planned-departure order, after entries of equal departure (R15). -/
def insertLaunch (e : LaunchEntry) : List LaunchEntry → List LaunchEntry
  | [] => [e]
  | x :: xs => if e.plan.departure < x.plan.departure then e :: x :: xs else x :: insertLaunch e xs

/-- Applies the staging list (R18): the answer says whether it succeeded. The dropped CANCELLED entries stay dropped
when the size still exceeds 512. -/
def State.applyStaging (s : State) : State × Bool :=
  let staged := s.ttu.staging
  let launched := (s.ttu.launch.filter (fun e => e.state == .launched)).map (·.plan.run)
  if s.ttu.overfull || s.ttu.invalid || hasTwice (staged.map (·.run))
      || staged.any (fun e => launched.contains e.run) then
    (s, false)
  else
    let others := s.ttu.launch.filter (fun e => e.state != .pending)
    let shrunk := shrinkLaunch staged.length others.length others
    if launchRoom < staged.length + shrunk.length then
      let left := s.ttu.launch.filter (fun e => e.state != .cancelled || shrunk.contains e)
      ({ s with ttu := { s.ttu with launch := left } }, false)
    else
      let joined := staged.foldl (fun l e => insertLaunch { plan := e, state := .pending } l) shrunk
      ({ s with ttu := { s.ttu with launch := joined } }, true)

/-- DAY_START's purge of LAUNCHED and CANCELLED entries (R22). -/
def State.purgeLaunch (s : State) : State :=
  { s with ttu := { s.ttu with launch := s.ttu.launch.filter (fun e => e.state == .pending) } }

end Sys2Proof.Machine
end

