-- ==== Sys2Proof/Machine/Announce.lean ====
section
/-! DEFINITION. Announcement Unit (07): rendering, the queue and its selection, the composer, the player link, display
lines. -/

namespace Sys2Proof.Machine

open Sys2Proof

/-! ## Rendering (R130) -/

/-- The number phrase at a place of the number phrase set. -/
def numberPhrase (c : AnnounceCfg) (i : Nat) : Nat := c.numberPhrases.getD i 0

/-- Decimal digits, most significant first; 0 is one digit. -/
def digitsOf (v : Nat) : List Nat :=
  if v < 10 then [v]
  else if v < 100 then [v / 10, v % 10]
  else if v < 1000 then [v / 100, v / 10 % 10, v % 10]
  else [v / 1000 % 10, v / 100 % 10, v / 10 % 10, v % 10]

/-- Phrases of a number below 100 that follows its hundreds. -/
def phrasesBelow100 (c : AnnounceCfg) (r : Nat) : List Nat :=
  if r = 0 then []
  else if r < 20 then [numberPhrase c r]
  else numberPhrase c (18 + r / 10) :: (if r % 10 = 0 then [] else [numberPhrase c (r % 10)])

/-- NUMBER: the value clamped to 999 in words; "hundred" is place 28 of the set. -/
def phrasesNumber (c : AnnounceCfg) (value : Nat) : List Nat :=
  let v := min 999 value
  if v = 0 then [numberPhrase c 0]
  else (if v / 100 = 0 then [] else [numberPhrase c (v / 100), numberPhrase c 28]) ++ phrasesBelow100 c (v % 100)

/-- A table's entry, or the fallback phrase when it is 0 or absent. -/
def entryOrFallback (c : AnnounceCfg) (table : List Nat) (v : Nat) : Nat :=
  match table[v]? with
  | some 0 | none => c.fallback
  | some x => x

/-- The phrases of an element; phrase code 0 gives none (R130). -/
def phrasesOf (c : AnnounceCfg) (slots : List Nat) (e : Element) : List Nat :=
  let l := match e with
    | .phrase x => [x]
    | .slot i r =>
      let v := slots.getD i 0
      match r with
      | .digits => (digitsOf v).map (numberPhrase c)
      | .number => phrasesNumber c v
      | .minutes => phrasesNumber c v ++ [numberPhrase c (if v = 1 then 29 else 30)]
      | .destination => [entryOrFallback c c.destPhrases v]
      | .platform => [entryOrFallback c c.platPhrases v]
  l.filter (fun x => x != 0)

/-- A template's elements; none when it is undefined. -/
def templateOf (c : AnnounceCfg) (t : Nat) : List Element := c.templates.getD t []

/-! ## Counts -/

/-- Announcements dropped (R146). -/
def State.stepAnnDropped (s : State) (k : Nat) : State :=
  { s with anu := { s.anu with dropped := addCount s.anu.dropped k } }

/-- Phrases muted (R146). -/
def State.stepMuted (s : State) : State := { s with anu := { s.anu with muted := stepCount s.anu.muted } }

/-! ## The queue (R133) -/

/-- A request stands before another in the queue order. -/
def Request.before (a b : Request) : Bool :=
  decide (b.priority < a.priority) ||
    (a.priority == b.priority && (decide (a.time < b.time) || (a.time == b.time && decide (a.joined < b.joined))))

/-- Inserts a request in the queue order. -/
def insertRequest (r : Request) : List Request → List Request
  | [] => [r]
  | x :: xs => if r.before x then r :: x :: xs else x :: insertRequest r xs

/-- Greatest number of requests in the announcement queue. -/
abbrev annRoom : Nat := 8

/-- Greatest number of suspended requests. -/
abbrev stackRoom : Nat := 3

/-- No queued request has a waiting mark: the wake timer is not held any longer (R138; log 30). While another request
waits the timer stays set to the not-before it times, even when the request of that not-before has left the queue: R138
gives no step for it (DESIGN CHOICE, log 30). -/
def State.dropWake (s : State) : State :=
  if s.anu.queue.any (·.waiting) then s
  else
    let s1 := s.releaseOpt s.anu.wake
    { s1 with anu := { s1.anu with wake := none, wakeAt := none } }

/-- The last request of the queue's order, the youngest of the lowest priority, is displaced and counted (R133). -/
def State.displaceLast (s : State) : State :=
  ({ s with anu := { s.anu with queue := s.anu.queue.dropLast } } : State).stepAnnDropped 1

/-- A place in the queue for a request of a priority (R133): a free one, or one that a request of lower priority leaves.
-/
def State.annPlace (s : State) (priority : Nat) : Option State :=
  if s.anu.queue.length < annRoom then some s
  else
    match s.anu.queue.getLast? with
    | some l => if l.priority < priority then some s.displaceLast else none
    | none => none

/-- A request takes its place in the queue's order. -/
def State.putRequest (s : State) (r : Request) : State :=
  { s with anu := { s.anu with
      queue := insertRequest { r with joined := s.anu.joins } s.anu.queue
      joins := s.anu.joins + 1 } }

/-- A request joins the queue, measured when the queue is full; the answer says whether it was admitted (R133). -/
def State.enqueue (s : State) (r : Request) : State × Bool :=
  match s.annPlace r.priority with
  | some s1 => ((s1.putRequest r).dropWake, true)
  | none => (s.stepAnnDropped 1, false)

/-- A request may start now (R133). -/
def State.eligible (s : State) (r : Request) : Bool := !r.waiting && (s.inu.level != 7 || r.priority == 7)

/-- The eligible head (R133). -/
def State.eligibleHead (s : State) : Option Request := s.anu.queue.find? s.eligible

/-- The queue without the request with a number. -/
def dropNumber (n : Nat) (q : List Request) : List Request := q.filter (fun r => r.num != n)

/-! ## The wake timer (R138) -/

/-- The earliest not-before of the waiting requests. -/
def earliestWait (q : List Request) : Option Nat :=
  (q.filter (·.waiting)).foldl (fun best r =>
    match best, r.notBefore with
    | none, x => x
    | some b, some t => some (min b t)
    | some b, none => some b) none

/-- Every waiting request is dropped and counted: no timer can be had to end their waits (R138). -/
def State.dropWaiting (s : State) : State :=
  let n := (s.anu.queue.filter (·.waiting)).length
  ({ s with anu := { s.anu with
      queue := s.anu.queue.filter (fun r => !r.waiting)
      wake := none
      wakeAt := none } } : State).stepAnnDropped n

/-- A wake timer is asked for a not-before. -/
def State.askWake (s : State) (t : Nat) : State :=
  match s.requestTimer .wake (t - s.runTime) with
  | (s1, some h) => { s1 with anu := { s1.anu with wake := some h, wakeAt := some t } }
  | (s1, none) => s1.dropWaiting

/-- A request has taken a not-before (R138). -/
def State.wakeFor (s : State) (t : Nat) : State :=
  match s.anu.wake with
  | none => s.askWake t
  | some h =>
    if (match s.anu.wakeAt with | some w => decide (t < w) | none => true) then
      let s1 := s.reloadTimer h (t - s.runTime)
      { s1 with anu := { s1.anu with wakeAt := some t } }
    else s

/-- The wake timer's expiry (R138). -/
def State.wakeExpired (s : State) : State :=
  let s1 := s.releaseOpt s.anu.wake
  let q := s1.anu.queue.map (fun r =>
    if r.waiting && s1.reachedOpt r.notBefore then { r with waiting := false, notBefore := none } else r)
  let s2 : State := { s1 with anu := { s1.anu with queue := q, wake := none, wakeAt := none } }
  let s3 := match earliestWait q with
    | some t => s2.askWake t
    | none => s2
  s3.post .select

/-! ## The composer (R139) -/

/-- Places of the player FIFO. -/
abbrev fifoRoom : Nat := 16

/-- The phrases of an element, tagged. -/
def tagPhrases (num element : Nat) (codes : List Nat) : List Phrase :=
  codes.mapIdx (fun i c => { code := c, num := num, element := element, place := i })

/-- Puts in whole elements for as long as the next one's phrases fit: answers the cursor and the FIFO. -/
def putElements (c : AnnounceCfg) (slots : List Nat) (num : Nat) : List Element → Nat → List Phrase → Nat × List Phrase
  | [], cur, fifo => (cur, fifo)
  | e :: es, cur, fifo =>
    let ps := phrasesOf c slots e
    if fifo.length + ps.length ≤ fifoRoom then
      putElements c slots num es (cur + 1) (fifo ++ tagPhrases num cur ps)
    else (cur, fifo)

/-- The composer fills the FIFO from the playing request's cursor. -/
def State.compose (s : State) : State :=
  match s.anu.playing with
  | none => s
  | some r =>
    if r.stopping then s
    else
      let c := s.cfg.announce
      let x := putElements c r.slots r.num ((templateOf c r.template).drop r.cursor) r.cursor s.anu.fifo
      { s with anu := { s.anu with playing := some { r with cursor := x.1 }, fifo := x.2 } }

/-- Composition of a request is complete. -/
def State.composed (s : State) (r : Request) : Bool :=
  decide ((templateOf s.cfg.announce r.template).length ≤ r.cursor)

/-- A request enters the playing slot and is composed, its lead-in first (R137, R139). R139 tags the lead-in with the
cursor element and gives it no place in it: 0, as that element's first phrase has (DESIGN CHOICE, log 87). -/
def State.startRequest (s : State) (r : Request) : State :=
  let c := s.cfg.announce
  let lead := r.leadIn && c.leadIn != 0
  let fifo : List Phrase := if lead then [{ code := c.leadIn, num := r.num, element := r.cursor, place := 0 }] else []
  let r1 := if lead then { r with leadIn := false } else r
  ((({ s with anu := { s.anu with playing := some r1, fifo := fifo } } : State).compose).post .pump)

/-! ## Selection (R137) -/

/-- The top of the suspension stack, when it is a candidate. -/
def State.stackTop (s : State) : Option Request :=
  match s.anu.stack with
  | [] => none
  | r :: _ => if s.inu.level == 7 && r.priority != 7 then none else some r

/-- The stack top is resumed. -/
def State.resumeTop (s : State) (r : Request) : State :=
  ({ s with anu := { s.anu with stack := s.anu.stack.drop 1 } } : State).startRequest r

/-- A queue head starts. -/
def State.startHead (s : State) (r : Request) : State :=
  ({ s with anu := { s.anu with queue := dropNumber r.num s.anu.queue } } : State).startRequest r

/-- The selection, when the playing slot is empty. -/
def State.select (s : State) : State :=
  if s.anu.playing.isSome then s
  else
    match s.stackTop, s.eligibleHead with
    | some t, some h => if t.priority < h.priority then s.startHead h else s.resumeTop t
    | some t, none => s.resumeTop t
    | none, some h => s.startHead h
    | none, none => s

/-! ## Ends, preemption and the phrase boundary (R140, R141) -/

/-- The playing slot is emptied; a player timer that ran for a waiting phrase is released (log 31). -/
def State.leaveSlot (s : State) : State :=
  let s1 := if s.anu.outstanding.isNone then s.releaseOpt s.anu.playerTimer else s
  { s1 with anu := { s1.anu with
      playing := none
      fifo := []
      playerTimer := if s1.anu.outstanding.isNone then none else s1.anu.playerTimer
      untimed := if s1.anu.outstanding.isNone then false else s1.anu.untimed } }

/-- A cancelled request leaves the ANU, without repeats. -/
def State.endCancelled (s : State) : State := s.leaveSlot.post .select

/-- A request finishes: a repeat returns to the queue (R141). -/
def State.finishRequest (s : State) (r : Request) : State :=
  let s1 := s.leaveSlot
  if r.repeatCount = 0 then s1.post .select
  else
    let wait := decide (0 < r.interval)
    let nb := if wait then some (s1.runTime + r.interval) else none
    let x := { r with
      repeatCount := r.repeatCount - 1
      cursor := 0
      time := s1.runTime
      notBefore := nb
      waiting := wait }
    match s1.enqueue x with
    | (s2, true) => if wait then (s2.wakeFor (s1.runTime + r.interval)).post .select else s2.post .select
    | (s2, false) => s2.post .select

/-- The cursor a flush leaves: the element of the first flushed phrase, or where it stands when none was flushed. -/
def State.flushCursor (s : State) (r : Request) : Nat :=
  match s.anu.fifo.head? with
  | some p => p.element
  | none => r.cursor

/-- The playing request is preempted by the eligible head (R140). -/
def State.preempt (s : State) (r h : Request) : State :=
  let r1 := { r with cursor := s.flushCursor r, leadIn := true }
  let pushed := r1 :: s.anu.stack
  let s1 := if stackRoom < pushed.length then s.stepAnnDropped 1 else s
  ({ s1 with anu := { s1.anu with
      stack := pushed.take stackRoom
      fifo := []
      queue := dropNumber h.num s1.anu.queue } } : State).startRequest h

/-- The request has nothing left to play or compose, and no phrase is outstanding. -/
def State.playedOut (s : State) (r : Request) : Bool :=
  s.composed r && s.anu.fifo.isEmpty && s.anu.outstanding.isNone

/-- The phrase boundary (R140, R141). -/
def State.boundary (s : State) : State :=
  match s.anu.playing with
  | none => s.post .select
  | some r =>
    if r.stopping then s.endCancelled
    else if s.playedOut r then s.finishRequest r
    else
      match s.eligibleHead with
      | some h => if r.priority < h.priority then s.preempt r h else s.post .pump
      | none => s.post .pump

/-! ## The player link (R142, R143) -/

/-- The player timer is loaded; refused, the phrase is sent or waited for with no timer (R142). -/
def State.loadPlayer (s : State) (n : Nat) : State :=
  let s1 := s.releaseOpt s.anu.playerTimer
  match s1.requestTimer .player n with
  | (s2, h) => { s2 with anu := { s2.anu with playerTimer := h, untimed := h.isNone } }

/-- The held player timer is loaded again (R142, R151); a phrase that has none goes on with none. -/
def State.reloadPlayer (s : State) (n : Nat) : State :=
  match s.anu.playerTimer with
  | some h => s.reloadTimer h n
  | none => s

/-- The player timer is released. -/
def State.releasePlayer (s : State) : State :=
  let s1 := s.releaseOpt s.anu.playerTimer
  { s1 with anu := { s1.anu with playerTimer := none, untimed := false } }

/-- A phrase has left the FIFO: with 4 or fewer left, the composer puts in the next elements (R139). -/
def State.refill (s : State) : State := if s.anu.fifo.length ≤ 4 then s.compose else s

/-- The FIFO head is sent (R142). Its 5 ds timer is asked for at the send even when the phrase had been refused a timer
while it waited in IDLE, which R142 leaves open (DESIGN CHOICE, log 60). -/
def State.sendPhrase (s : State) (r : Request) (p : Phrase) : State :=
  (({ s with
      anu := { s.anu with fifo := s.anu.fifo.drop 1, outstanding := some p, player := .awaitFall }
      pins := { s.pins with plTx := emitPlay p.code r.zones } } : State).refill).loadPlayer 5

/-- The FIFO head is discarded as played in MUTE, and its phrase done is taken at once (R143). -/
def State.discardPhrase (s : State) : State :=
  ((({ s with anu := { s.anu with fifo := s.anu.fifo.drop 1 } } : State).stepMuted).refill).post .boundary

/-- Drives the player link (R142). -/
def State.pump (s : State) : State :=
  match s.anu.playing with
  | none => s
  | some r =>
    match s.anu.fifo with
    | [] => if s.playedOut r then s.finishRequest r else s
    | p :: _ =>
      match s.anu.player with
      | .idle =>
        if s.pins.ready then s.sendPhrase r p
        else if s.anu.playerTimer.isNone && !s.anu.untimed then s.loadPlayer s.cfg.announce.phraseTimeout
        else s
      | .awaitFall | .awaitRise => s
      | .mute => s.discardPhrase

/-- The phrase done of the outstanding phrase, with the link's next state. -/
def State.phraseDone (s : State) (next : PlayerState) : State :=
  ({ s.releasePlayer with anu := { s.releasePlayer.anu with outstanding := none, player := next } } : State).post
    .boundary

/-- Entry to MUTE: PLAYER_FAULT is raised (R143). -/
def State.playerMute (s : State) : State := s.raise .playerFault Loc.none

/-- READY rises (Table 7-5). -/
def State.readyRises (s : State) : State :=
  let s1 : State := { s with pins := { s.pins with ready := true } }
  match s1.anu.player with
  | .idle => s1.pump
  | .awaitFall => s1
  | .awaitRise => s1.phraseDone .idle
  | .mute =>
    ((({ s1 with anu := { s1.anu with player := .idle } } : State).post (.condEnd .playerFault Loc.none)).post .pump)

/-- READY falls (Table 7-5). -/
def State.readyFalls (s : State) : State :=
  let s1 : State := { s with pins := { s.pins with ready := false } }
  match s1.anu.player with
  | .awaitFall =>
    ({ s1 with anu := { s1.anu with player := .awaitRise } } : State).reloadPlayer s1.cfg.announce.phraseTimeout
  | .idle | .awaitRise | .mute => s1

/-- The player timer expires (Table 7-5). -/
def State.playerExpired (s : State) : State :=
  match s.anu.player with
  | .idle =>
    (({ s.releasePlayer with anu := { s.releasePlayer.anu with player := .mute } } : State).playerMute).post .pump
  | .awaitFall => s.phraseDone .idle
  | .awaitRise => ((s.stepMuted).playerMute).phraseDone .mute
  | .mute => s.releasePlayer

/-! ## Requests (R131, R132) -/

/-- The same request (R131). -/
def Request.same (r : Request) (template : Nat) (slots : List Nat) (zones : BitVec 5) : Bool :=
  r.template == template && r.slots == slots && r.zones == zones

/-- A merge's changes to the present request, wherever it is (R132). -/
def Request.merge (r : Request) (q : AnnReq) : Request :=
  { r with
    priority := max r.priority q.priority
    repeatCount := q.repeatCount
    interval := q.interval
    sources := if r.sources.contains q.source || decide (4 ≤ r.sources.length) then r.sources
      else r.sources ++ [q.source] }

/-- Merge into a queued request: its wait ends, and it takes its place in the order. -/
def State.mergeQueued (s : State) (r : Request) (q : AnnReq) : State :=
  let x := { r.merge q with waiting := false, notBefore := none }
  (({ s with anu := { s.anu with queue := insertRequest x (dropNumber r.num s.anu.queue) } } : State).dropWake).post .select

/-- Merge into a suspended request: when its priority rises it joins the queue (R132, R133). Where the full queue turns it
away it is lost, and the request that merged still counts as admitted (DESIGN CHOICE, log 72). -/
def State.mergeSuspended (s : State) (r : Request) (q : AnnReq) : State :=
  let x := r.merge q
  if r.priority < x.priority then
    let s1 : State := { s with anu := { s.anu with stack := dropNumber r.num s.anu.stack } }
    ((s1.enqueue { x with time := s.runTime }).1).post .select
  else { s with anu := { s.anu with stack := s.anu.stack.map (fun y => if y.num == r.num then x else y) } }

/-- Merge into the playing request: a stopping mark is cleared and the FIFO refilled. -/
def State.mergePlaying (s : State) (r : Request) (q : AnnReq) : State :=
  ({ s with anu := { s.anu with playing := some { r.merge q with stopping := false } } } : State)
    |> fun s1 => if r.stopping then s1.compose else s1

/-- The numbers that the ANU's requests carry. -/
def State.annNumbers (s : State) : List Nat :=
  (s.anu.queue ++ s.anu.stack ++ s.anu.playing.toList).map (·.num)

/-- The next announcement number not carried; at most 12 are carried (R131). -/
def freshNumber (carried : List Nat) : Nat → Nat → Nat
  | 0, n => n
  | fuel + 1, n => if carried.contains n then freshNumber carried fuel (wrap8 (n + 1)) else n

/-- A request as it joins the queue with a number (R131 step 3). -/
def AnnReq.toRequest (q : AnnReq) (num time : Nat) : Request :=
  { num := num, template := q.template, priority := q.priority, zones := q.zones, slots := q.slots,
    repeatCount := q.repeatCount, interval := q.interval, notBefore := none, waiting := false,
    sources := [q.source], time := time, joined := 0, cursor := 0, leadIn := false, stopping := false }

/-- A new request takes its place with the next number; the counter steps past the numbers still carried, a displaced
request's not among them (R131 step 3). -/
def State.joinNew (s : State) (q : AnnReq) : State :=
  let n := freshNumber s.annNumbers 13 s.anu.numCtr
  let s1 := s.putRequest (q.toRequest n s.runTime)
  { s1 with anu := { s1.anu with numCtr := freshNumber (n :: s.annNumbers) 13 (wrap8 (n + 1)) } }

/-- A request that is new joins the queue, or is not admitted and counted (R131 step 3, R133). -/
def State.joinRequest (s : State) (q : AnnReq) : State × Bool :=
  match s.annPlace q.priority with
  | some s1 => (((s1.joinNew q).dropWake).post .select, true)
  | none => (s.stepAnnDropped 1, false)

/-- The ANU takes a request: the answer says whether it is admitted, which every request that merges is (R131; log 72). A
node in CONSOLE role, and one that has not entered LISTEN, discards it. -/
def State.takeRequest (s : State) (q : AnnReq) : State × Bool :=
  if !s.listening || !s.isStation then (s, false)
  else if (templateOf s.cfg.announce q.template).isEmpty || q.zones == 0 then (s.stepAnnDropped 1, false)
  else
    let is := fun (r : Request) => r.same q.template q.slots q.zones
    match s.anu.queue.find? is with
    | some r => (s.mergeQueued r q, true)
    | none =>
      match s.anu.stack.find? is with
      | some r => (s.mergeSuspended r q, true)
      | none =>
        match s.anu.playing.filter is with
        | some r => (s.mergePlaying r q, true)
        | none => s.joinRequest q

/-- The TTU sets the announced flag of the record (R134). -/
def TrainRec.announced (r : TrainRec) : AnnouncedFlag → TrainRec
  | .approach => { r with announcedApproach := true }
  | .held => { r with announcedHeld := true }

/-- A block's request reaches the ANU (R131, R134). -/
def State.handleAnnounce (s : State) (q : AnnReq) : State :=
  match s.takeRequest q with
  | (s1, true) =>
    match q.flag with
    | some (tag, f) => s1.updRec tag (fun r => r.announced f)
    | none => s1
  | (s1, false) => s1

/-! ## Cancellation (R135, R136) -/

/-- The playing request is cancelled: its unsent phrases are flushed; it ends at once when none is outstanding. -/
def State.stopPlaying (s : State) (r : Request) : State :=
  let s1 : State := { s with anu := { s.anu with
      playing := some { r with stopping := true, cursor := s.flushCursor r }
      fifo := [] } }
  if s.anu.outstanding.isNone then s1.endCancelled else s1

/-- A request without a source pair, when it uses the template named. -/
def Request.without (r : Request) (x : Source) (t : Option Nat) : Request :=
  if t.isNone || t == some r.template then { r with sources := r.sources.erase x } else r

/-- Cancellation of a source pair, and of a template with it (R135). -/
def State.cancelPair (s : State) (x : Source) (t : Option Nat) : State :=
  let strip := fun (l : List Request) =>
    (l.map (fun r => (r.sources.contains x, r.without x t))).filterMap (fun y =>
      if y.1 && y.2.sources.isEmpty then none else some y.2)
  let s1 := ({ s with anu := { s.anu with queue := strip s.anu.queue, stack := strip s.anu.stack } } : State).dropWake
  match s1.anu.playing with
  | none => s1
  | some r =>
    let r1 := r.without x t
    if r.sources.contains x && r1.sources.isEmpty then s1.stopPlaying r1
    else { s1 with anu := { s1.anu with playing := some r1 } }

/-- CANCEL_ANNOUNCE cancels the same request outright (R136): the answer says whether one was present. A playing request
whose phrase is outstanding keeps its pairs until it ends, so that a merge before then adds to them: R136 treats it as one
with an emptied source list and does not say that the list is emptied (DESIGN CHOICE, log 59). -/
def State.cancelSame (s : State) (template : Nat) (slots : List Nat) (zones : BitVec 5) : State × Bool :=
  let is := fun (r : Request) => r.same template slots zones
  if s.anu.queue.any is || s.anu.stack.any is then
    (({ s with anu := { s.anu with
        queue := s.anu.queue.filter (fun r => !is r)
        stack := s.anu.stack.filter (fun r => !is r) } } : State).dropWake, true)
  else
    match s.anu.playing.filter is with
    | some r => (s.stopPlaying r, true)
    | none => (s, false)

/-! ## Display lines (R144, R145) -/

/-- Entries of a display line. -/
abbrev lineRoom : Nat := 2

/-- The indication for a time (R144). -/
def indicationFor (now : Nat) (t : Int) : Indication :=
  let d := t - (now : Int)
  if d ≤ 300 then .due else .minutes (min 99 (ceilDiv d.toNat 600))

/-- The berthed train's entry (R144 step 1). -/
def State.berthedEntry (s : State) (p : Nat) : List LineEntry :=
  match (s.plat p).occupant.bind s.recOf with
  | some r =>
    match r.state with
    | .spare => []
    | .held => [{ run := r.run, dest := some r.dest, indication := .held }]
    | _ => [{ run := r.run, dest := some r.dest, indication := .due }]
  | none => []

/-- Approaching trains (R144 step 2). -/
def State.approachEntries (s : State) (p : Nat) (c : PlatformCfg) (now : Nat) : List LineEntry :=
  if c.turnback then []
  else
    (sortByAge (s.approaching c.dir)).filterMap (fun r =>
      if s.candidatePlatform r.dir == some p then
        (s.predictedArrival r).map (fun t => { run := r.run, dest := some r.dest, indication := indicationFor now t })
      else none)

/-- The prediction a STATUS carries for a direction. -/
def StatusBody.predictionOf (b : StatusBody) : Dir → Option Prediction
  | .up => b.up.prediction
  | .down => b.down.prediction

/-- The prediction of platform p's upstream neighbour, from a STATUS received no more than 50 ds before (R25, R144). -/
def State.upstreamPrediction (s : State) (c : PlatformCfg) : Option Prediction :=
  (s.freshStatus (s.cfg.upstream c.dir)).bind (fun b => b.predictionOf c.dir)

/-- The upstream prediction's entry (R144 step 3). -/
def State.upstreamEntry (s : State) (c : PlatformCfg) (now : Nat) : List LineEntry :=
  if c.turnback then []
  else
    match (s.upstreamPrediction c).filter (fun x => !s.runCarried x.run) with
    | some x => [{ run := x.run, dest := none, indication := indicationFor now (x.departure + c.approach : Nat) }]
    | none => []

/-- The launch list's entries (R144 step 4). -/
def State.launchEntries (s : State) (p : Nat) (c : PlatformCfg) (now : Nat) : List LineEntry :=
  if c.turnback then
    (s.ttu.launch.filter (fun e => e.state == .pending && e.plan.platform == p)).map (fun e =>
      { run := e.plan.run, dest := some e.plan.dest, indication := indicationFor now e.plan.departure })
  else []

/-- The line of platform p (R144). -/
def State.lineOf (s : State) (p : Nat) (c : PlatformCfg) : List LineEntry :=
  let timed := match s.now with
    | some now => s.approachEntries p c now ++ s.upstreamEntry c now ++ s.launchEntries p c now
    | none => []
  (s.berthedEntry p ++ timed).take lineRoom

/-- The line of one platform is formed, and sent when it has changed (R145; log 22). -/
def State.showLine (s : State) (p : Nat) : State :=
  match s.pcfg p with
  | none => s
  | some c =>
    let l := s.lineOf p c
    if s.slc.held.any (FieldCmd.isDisplay p) then { s with slc := { s.slc with held := holdCmd (.display p l) s.slc.held } }
    else if s.anu.lastLines.getD p none == some l then s
    else s.command (.display p l)

/-- All display lines at a status period (R144), by platform index, lowest first: R144 and R145 give no order among
the platforms (DESIGN CHOICE, log 84). A node in CONSOLE role keeps none. -/
def State.showLines (s : State) : State :=
  if s.isRunning && s.isStation then s.platforms.foldl State.showLine s else s

end Sys2Proof.Machine
end

