-- ==== Sys2Proof/Machine/Starts.lean ====
section
/-! DEFINITION. Start Arbiter (05): the headroom test, start queues, the asker records, the exchange with the sharing
node, overrides, stand-in. -/

namespace Sys2Proof.Machine

open Sys2Proof

/-! ## Queues (R93) -/

/-- An ask stands before another: by ready time, absent last; equal ones in the order they joined. -/
def QueuedAsk.before (a b : QueuedAsk) : Bool :=
  match a.ready, b.ready with
  | some x, some y => decide (x < y)
  | some _, none => true
  | none, _ => false

/-- Inserts an ask in the queue order, behind its equals. -/
def insertAsk (a : QueuedAsk) : List QueuedAsk → List QueuedAsk
  | [] => [a]
  | x :: xs => if a.before x then a :: x :: xs else x :: insertAsk a xs

/-- Greatest number of queued asks. -/
abbrev askRoom : Nat := 6

/-- An ask of a pair of node and platform. -/
def QueuedAsk.ofPair (node p : Nat) (a : QueuedAsk) : Bool := a.node == node && a.platform == p

/-- An ask with node, platform and serial. -/
def QueuedAsk.is (node p serial : Nat) (a : QueuedAsk) : Bool := a.ofPair node p && a.serial == serial

/-- A counted start with node, platform and serial. -/
def Counted.is (node p serial : Nat) (c : Counted) : Bool := c.node == node && c.platform == p && c.serial == serial

/-- The queue without the ask of a pair. -/
def dropPair (node p : Nat) (q : List QueuedAsk) : List QueuedAsk := q.filter (fun a => !a.ofPair node p)

/-- Changes the start queue of section record k. -/
def State.updQueue (s : State) (k : Nat) (f : List QueuedAsk → List QueuedAsk) : State :=
  s.updArb k (fun a => { a with queue := f a.queue })

/-- Changes the counted-start list of section record k. -/
def State.updCounted (s : State) (k : Nat) (f : List Counted → List Counted) : State :=
  s.updArb k (fun a => { a with counted := f a.counted })

/-- Changes the taken-start list of section record k. -/
def State.updTaken (s : State) (k : Nat) (f : List Taken → List Taken) : State :=
  s.updArb k (fun a => { a with taken := f a.taken })

/-- A section record that carries an id is changed; an id that names none changes nothing. -/
def State.atSection (s : State) (id : Nat) (f : Nat → State → State) : State :=
  match s.secIndex id with
  | some k => f k s
  | none => s

/-! ## The headroom test (R92, R103, R104) -/

/-- Net demand of a queued ask (R104). -/
def QueuedAsk.net (a : QueuedAsk) : Nat := netDemand a.demand a.credit

/-- The limit in force (R92): the effective limit (R72) at the owner, 1 while Im is unset, 1 in stand-in (R106). -/
def State.limitInForce (s : State) (k : Nat) : Nat :=
  match s.scfg k with
  | some c =>
    if !c.owner || (s.sec k).im.isNone || (s.sec k).fault then 1 else c.limit
  | none => 0

/-- The current test (R92 condition 3): an unset Im is 0. -/
def State.currentTest (s : State) (k : Nat) (a : QueuedAsk) : Bool :=
  match s.scfg k with
  | some c =>
    decide (((s.sec k).im.getD 0) + ((s.arb k).counted.map (·.demand)).sum + a.net ≤ c.imax)
  | none => false

/-- The ask at the head is grantable (R92). -/
def State.grantable (s : State) (k : Nat) (a : QueuedAsk) : Bool :=
  (s.sec k).state == some .energized && decide ((s.arb k).counted.length < s.limitInForce k)
    && (a.overrideFlag || s.currentTest k a)

/-! ## Grants (R91, R94, R100, R106) -/

/-- Greatest number of taken-start entries. -/
abbrev takenRoom : Nat := 3

/-- An entry joins a taken-start list; the oldest leaves when a fourth joins (R100). -/
def joinTaken (x : Taken) (l : List Taken) : List Taken :=
  let m := l ++ [x]
  m.drop (m.length - takenRoom)

/-- The grant of a local or stand-in ask: the asker record holds it and the RGE is handed GRANT; in stand-in an entry
joins the taken-start list. -/
def State.answerOwn (s : State) (k : Nat) (a : QueuedAsk) : State :=
  let origin := if s.owns k then Route.localRoute else Route.standIn
  let s1 := s.updAsker a.platform (fun r => { r with phase := .holding, origin := some origin, waitEnd := none })
  let s2 := if s.owns k then s1
    else s1.updTaken k (joinTaken
      { platform := a.platform, serial := a.serial, demand := a.net, takenAt := s.runTime, origin := .standIn })
  s2.post (.grant a.platform a.serial origin ((s.scfg k).map (·.id) |>.getD 0))

/-- POWER_OVERRIDE is raised when an override grant's current test fails (R103), tested before the start is counted. -/
def State.raiseOverride (s : State) (k : Nat) (wanted : Bool) : State :=
  match s.scfg k with
  | some c => if wanted then s.raiseOver .powerOverride (Loc.ofSection c.id) (some c.span) else s
  | none => s

/-- The start that an ask granted at a running time becomes, with its net demand and the start window sw (R91, R104). -/
def QueuedAsk.start (a : QueuedAsk) (now sw : Nat) : Counted :=
  { node := a.node, platform := a.platform, serial := a.serial, demand := a.net, endTime := now + sw }

/-- Grants the head ask a (R94). -/
def State.grantAsk (s : State) (k : Nat) (a : QueuedAsk) : State :=
  let overridden := a.overrideFlag && !s.currentTest k a
  let s1 := (s.updQueue k (fun q => q.drop 1)).updCounted k (fun l => l ++ [a.start s.runTime s.cfg.sw])
  let s2 := if a.node == s.cfg.node then s1.answerOwn k a
    else s1.send a.node (.powerGrant ((s.scfg k).map (·.id) |>.getD 0) a.platform a.serial)
  s2.raiseOverride k overridden

/-- Re-evaluation of a section's queue (R94); at most `fuel` grants. -/
def State.reevaluateN : Nat → Nat → State → State
  | 0, _, s => s
  | fuel + 1, k, s =>
    match (s.arb k).queue.head? with
    | none => s
    | some a => if s.grantable k a then State.reevaluateN fuel k (s.grantAsk k a) else s

/-- Re-evaluation of a section's queue: the queue's room bounds the grants. -/
def State.reevaluate (s : State) (k : Nat) : State := State.reevaluateN askRoom k s

/-! ## The asker (R90, R95, R99, R102) -/

/-- The asker record's ask as a queued ask of this node. -/
def Asker.queued (r : Asker) (node p : Nat) : QueuedAsk :=
  { node := node, platform := p, serial := r.serial, ready := r.ready, demand := r.demand, credit := r.credit,
    overrideFlag := r.overrideFlag, heard := none }

/-- A local or stand-in ask joins the queue of section record k, or waits for a free place (R95). -/
def State.joinAsk (s : State) (k p : Nat) : State :=
  let r := s.asker p
  if askRoom ≤ (dropPair s.cfg.node p (s.arb k).queue).length then
    s.updAsker p (fun r => { r with phase := .retryWait, waitEnd := some (s.runTime + 10) })
  else
    (s.updQueue k (fun q => insertAsk (r.queued s.cfg.node p) (dropPair s.cfg.node p q))).updAsker p (fun r =>
      { r with phase := .queued, waitEnd := none })

/-- The DEFER that the RGE is handed for the ask of platform p (R35, R95). -/
def State.deferAsk (s : State) (p : Nat) : Msg := .defer p (s.asker p).serial

/-- A local or stand-in ask is presented to the queue of section record k, which is re-evaluated (R95). -/
def State.presentAsk (s : State) (k p : Nat) : State := ((s.joinAsk k p).reevaluate k).post (s.deferAsk p)

/-- The POWER_ASK of an asker record. -/
def Asker.telegram (r : Asker) (p : Nat) : Body :=
  .powerAsk { sec := r.sec, platform := p, serial := r.serial, ready := r.ready, overrideFlag := r.overrideFlag,
              demand := r.demand, credit := r.credit }

/-- The owner named by section record k. -/
def State.partnerOf (s : State) (k : Nat) : Nat := ((s.scfg k).map (·.partner)).getD 0

/-- A remote ask is sent, and the answer wait begins (R99). -/
def State.sendAsk (s : State) (k p : Nat) : State :=
  (s.send (s.partnerOf k) ((s.asker p).telegram p)).updAsker p (fun r =>
    { r with phase := .waiting, waitEnd := some (s.runTime + 10), deferred := false })

/-- The answer wait's end (R99). -/
def State.askAgain (s : State) (p : Nat) : State :=
  let r := s.asker p
  match s.secIndex r.sec with
  | some k => if r.deferred then s.sendAsk k p else (s.post (.defer p r.serial)).sendAsk k p
  | none => s

/-- The retry wait's end (R95, R107). -/
def State.presentAgain (s : State) (p : Nat) : State :=
  let r := s.asker p
  match s.secIndex r.sec with
  | some k => if r.route == .remote then s.sendAsk k p else s.presentAsk k p
  | none => s

/-- The record becomes IDLE. -/
def Asker.toIdle (r : Asker) : Asker := { r with phase := .idle, waitEnd := none, origin := none, deferred := false }

/-- The queued ask of platform p leaves the queue of section record k without a grant. -/
def State.withdrawAsk (s : State) (k p : Nat) : State := (s.updQueue k (dropPair s.cfg.node p)).reevaluate k

/-- An ask is cancelled (Table 5-5, first four rows). -/
def State.cancelAsk (s : State) (p : Nat) : State :=
  let r := s.asker p
  let s1 := s.updAsker p Asker.toIdle
  match r.phase with
  | .queued => s1.atSection r.sec (fun k s => s.withdrawAsk k p)
  | .waiting => s1.atSection r.sec (fun k s => s.send (s.partnerOf k) (.powerReturn r.sec p r.serial))
  | .idle | .retryWait | .holding => s1

/-- A counted start of this node leaves the list of section record k (R91). -/
def State.uncount (s : State) (k p serial : Nat) : State :=
  if (s.arb k).counted.any (Counted.is s.cfg.node p serial) then
    (s.updCounted k (fun l => l.filter (fun c => !c.is s.cfg.node p serial))).reevaluate k
  else s

/-- A taken-start entry records a grant of platform p with a serial and an origin. -/
def Taken.is (p serial : Nat) (origin : Route) (t : Taken) : Bool :=
  t.platform == p && t.serial == serial && t.origin == origin

/-- The taken-start entry of a returned grant leaves, the entry that records that grant (R100). -/
def State.untake (s : State) (k p serial : Nat) (origin : Route) : State :=
  s.updTaken k (fun l => l.filter (fun t => !t.is p serial origin))

/-- The asker record of platform p is HOLDING the grant with this serial, origin and section id (R100). -/
def State.holdsGrant (s : State) (p serial : Nat) (origin : Route) (id : Nat) : Bool :=
  let r := s.asker p
  r.phase == .holding && r.sec == id && r.serial == serial && r.origin == some origin

/-- A grant is returned by its origin (Table 5-5); the record becomes IDLE when it holds that grant, and is left as it
stands otherwise (R100, R101). -/
def State.returnGrant (s : State) (p serial : Nat) (origin : Route) (id : Nat) : State :=
  let s1 := if s.holdsGrant p serial origin id then s.updAsker p Asker.toIdle else s
  s1.atSection id (fun k s =>
    match origin with
    | .localRoute => s.uncount k p serial
    | .remote => (s.send (s.partnerOf k) (.powerReturn id p serial)).untake k p serial .remote
    | .standIn => (if (s.arb k).standIn then s.uncount k p serial else s).untake k p serial .standIn)

/-- The grant that platform p holds is returned. -/
def State.returnHeld (s : State) (p : Nat) : State :=
  let r := s.asker p
  match r.phase, r.origin with
  | .holding, some o => s.returnGrant p r.serial o r.sec
  | _, _ => s

/-- A regular departure ends the asker record; the start stays counted (Table 5-5, last row). -/
def State.keepStart (s : State) (p : Nat) : State := s.updAsker p Asker.toIdle

/-- Whatever the asker record holds is ended: an earlier ask cancelled, an earlier grant returned (R90, R101). -/
def State.endAsk (s : State) (p : Nat) : State :=
  match (s.asker p).phase with
  | .idle => s
  | .holding => s.returnHeld p
  | .queued | .waiting | .retryWait => s.cancelAsk p

/-- The route of an ask in section record k (R90). -/
def State.routeOf (s : State) (k : Nat) : Route :=
  if s.owns k then .localRoute else if s.present (s.partnerOf k) then .remote else .standIn

/-- A start ask of platform p (R90). -/
def State.startAsk (s : State) (p id serial : Nat) (ready : Option Nat) (demand credit : Nat) : State :=
  let s1 := s.endAsk p
  match s1.secIndex id with
  | none => s1
  | some k =>
    let route := s1.routeOf k
    let s2 := s1.updAsker p (fun _ =>
      { sec := id, route := route, phase := .idle, serial := serial, ready := ready, demand := demand, credit := credit,
        overrideFlag := false, waitEnd := none, origin := none, deferred := false })
    match route with
    | .remote => s2.sendAsk k p
    | .localRoute | .standIn => s2.presentAsk k p

/-- The ask of platform p becomes an override ask (R102). -/
def State.overrideAsk (s : State) (p : Nat) : State :=
  let r := s.asker p
  let s1 := s.updAsker p (fun r => { r with overrideFlag := true })
  match r.phase with
  | .queued =>
    s1.atSection r.sec (fun k s =>
      (s.updQueue k (fun q => q.map (fun a =>
        if a.ofPair s.cfg.node p then { a with overrideFlag := true } else a))).reevaluate k)
  | .waiting => s1.atSection r.sec (fun k s => s.sendAsk k p)
  | .retryWait => s1
  | .idle | .holding => s

/-! ## Counted starts and taken starts (R91, R100) -/

/-- The first counted start whose end time is reached leaves the list, which is re-evaluated. -/
def State.countedEnd (s : State) (k : Nat) : State :=
  match (s.arb k).counted.find? (fun c => s.reached c.endTime) with
  | some c => (s.updCounted k (fun l => l.erase c)).reevaluate k
  | none => s

/-- The first taken-start entry whose running time plus Sw is reached leaves the list. -/
def State.takenEnd (s : State) (k : Nat) : State :=
  match (s.arb k).taken.find? (fun t => s.reached (t.takenAt + s.cfg.sw)) with
  | some t => s.updTaken k (fun l => l.erase t)
  | none => s

/-- The first ask of the sharing node not heard for 30 ds leaves the queue, which is re-evaluated (R97). -/
def State.unheardAsk (s : State) (k : Nat) : State :=
  match (s.arb k).queue.find? (fun a => match a.heard with | some t => s.reached (t + 30) | none => false) with
  | some a => (s.updQueue k (fun q => q.erase a)).reevaluate k
  | none => s

/-! ## The owner's side of the exchange (R96, R98) -/

/-- The section record named by a telegram of the sharing node: owned here, its partner the sender. -/
def State.sharedWith (s : State) (sender id : Nat) : Option Nat :=
  match s.secIndex id with
  | some k => if s.owns k && s.partnerOf k == sender then some k else none
  | none => none

/-- The answer to a POWER_ASK that has been queued: POWER_GRANT has been sent when the re-evaluation granted it. -/
def State.answerQueued (s : State) (k node : Nat) (b : PowerAskBody) : State :=
  if (s.arb k).queue.any (QueuedAsk.is node b.platform b.serial) then
    s.send node (.powerDefer b.sec b.platform b.serial false)
  else s

/-- The owner takes a POWER_ASK (Table 5-4). -/
def State.ownerAsk (s : State) (k node : Nat) (b : PowerAskBody) : State :=
  let arb := s.arb k
  if arb.counted.any (Counted.is node b.platform b.serial) then
    s.send node (.powerGrant b.sec b.platform b.serial)
  else
    match arb.queue.find? (QueuedAsk.is node b.platform b.serial) with
    | some a =>
      let newly := b.overrideFlag && !a.overrideFlag
      let s1 := s.updQueue k (fun q => q.map (fun x =>
        if x.is node b.platform b.serial then
          { x with heard := some s.runTime, overrideFlag := x.overrideFlag || b.overrideFlag }
        else x))
      (if newly then s1.reevaluate k else s1).answerQueued k node b
    | none =>
      let others := dropPair node b.platform arb.queue
      if askRoom ≤ others.length then s.send node (.powerDefer b.sec b.platform b.serial true)
      else
        let a : QueuedAsk :=
          { node := node, platform := b.platform, serial := b.serial, ready := b.ready, demand := b.demand,
            credit := b.credit, overrideFlag := b.overrideFlag, heard := some s.runTime }
        (((s.updQueue k (fun _ => insertAsk a others)).reevaluate k)).answerQueued k node b

/-- The owner takes a POWER_RETURN (R98). -/
def State.ownerReturn (s : State) (k node p serial : Nat) : State :=
  let arb := s.arb k
  if arb.counted.any (Counted.is node p serial) then
    (s.updCounted k (fun l => l.filter (fun c => !c.is node p serial))).reevaluate k
  else if arb.queue.any (QueuedAsk.is node p serial) then
    (s.updQueue k (fun q => q.filter (fun a => !a.is node p serial))).reevaluate k
  else s

/-! ## The asker's side of the exchange (R100) -/

/-- The section record named by an answer: its partner is the sender, and it is owned elsewhere. -/
def State.ownedBy (s : State) (sender id : Nat) : Option Nat :=
  match s.secIndex id with
  | some k => if !s.owns k && s.partnerOf k == sender then some k else none
  | none => none

/-- An answer matches the asker record of its platform. -/
def State.answerMatches (s : State) (id p serial : Nat) : Bool :=
  let r := s.asker p
  r.sec == id && r.serial == serial
    && ((r.phase == .waiting && r.route == .remote) || (r.phase == .queued && r.route == .standIn))

/-- The answer repeats a grant already held. -/
def State.grantHeldAlready (s : State) (id p serial : Nat) : Bool := s.holdsGrant p serial .remote id

/-- The asker takes a POWER_GRANT (R100). One that does not match and is not held already goes to the RGE as it came,
and `State.takeGrant` returns it. -/
def State.askerGrant (s : State) (k id p serial : Nat) : State :=
  if s.answerMatches id p serial then
    let r := s.asker p
    let s1 := s.updAsker p (fun r => { r with phase := .holding, origin := some .remote, waitEnd := none })
    let s2 := if r.route == .standIn then s1.withdrawAsk k p else s1
    (s2.updTaken k (joinTaken
      { platform := p, serial := serial, demand := netDemand r.demand r.credit, takenAt := s.runTime,
        origin := .remote })).post
        (.grant p serial .remote id)
  else if s.grantHeldAlready id p serial then s
  else s.post (.grant p serial .remote id)

/-- The asker takes a POWER_DEFER. -/
def State.askerDefer (s : State) (id p serial : Nat) : State :=
  if s.answerMatches id p serial then (s.updAsker p (fun r => { r with deferred := true })).post (.defer p serial) else s

/-! ## Stand-in (R105, R107) -/

/-- A stand-in section: owned elsewhere, and the onward section of a platform (5.9). -/
def State.isStandIn (s : State) (k : Nat) : Bool :=
  match s.scfg k with
  | some c => !c.owner && s.cfg.platforms.any (fun x => x.onward == c.id)
  | none => false

/-- The stand-in sections whose owner is a node. -/
def State.standInOf (s : State) (n : Nat) : List Nat :=
  s.sections.filter (fun k => s.isStandIn k && s.partnerOf k == n)

/-- The platforms whose asker record asks in section record k with a route and a phase. -/
def State.askersIn (s : State) (k : Nat) (route : Route) (phase : AskPhase) : List Nat :=
  s.platforms.filter (fun p =>
    let r := s.asker p
    s.secIndex r.sec == some k && r.route == route && r.phase == phase)

/-- Sets the route of an asker record. -/
def State.setRoute (s : State) (p : Nat) (route : Route) : State := s.updAsker p (fun r => { r with route := route })

/-- The counted starts seeded from the taken-start list (R105 1). -/
def State.seedCounted (s : State) (k : Nat) : List Counted :=
  ((s.arb k).taken.filter (fun t => !s.reached (t.takenAt + s.cfg.sw))).map (fun t =>
    { node := s.cfg.node, platform := t.platform, serial := t.serial, demand := t.demand, endTime := t.takenAt + s.cfg.sw })

/-- The WAITING asks of platforms move to the stand-in queue of section record k, all before it is re-evaluated (R105
2). -/
def State.moveAsks (s : State) (k : Nat) (ps : List Nat) : State :=
  ps.foldl (fun s p => (s.setRoute p .standIn).joinAsk k p) s

/-- Stand-in begins for section record k (R105). The order in which several asks move is not stated: they move by
platform index, lowest first (DESIGN CHOICE, log 50). -/
def State.beginStandIn (s : State) (k : Nat) : State :=
  if (s.arb k).standIn then s
  else
    let ps := s.askersIn k .remote .waiting
    let s1 := s.updArb k (fun a => { a with standIn := true, counted := s.seedCounted k })
    ((s1.moveAsks k ps).reevaluate k).posts (ps.map s.deferAsk)

/-- Stand-in ends for section record k (R107). The order in which several QUEUED asks are sent is not stated: their
POWER_ASKs go by platform index, lowest first (DESIGN CHOICE, log 50). -/
def State.endStandIn (s : State) (k : Nat) : State :=
  if (s.arb k).standIn then
    let s1 := s.updArb k (fun a => { a with standIn := false, counted := [], queue := [] })
    let s2 := (s.askersIn k .standIn .queued).foldl (fun s p => (s.setRoute p .remote).sendAsk k p) s1
    (s.askersIn k .standIn .retryWait).foldl (fun s p => s.setRoute p .remote) s2
  else s

end Sys2Proof.Machine
end

