-- ==== Sys2Proof/Machine/Sections.lean ====
section
/-! DEFINITION. Section Monitor (04): gates, breaker reports, trips, reclosing, lockout, isolation, restoring, mirrors.
-/

namespace Sys2Proof.Machine

open Sys2Proof

/-! ## Reading -/

/-- The id of section record k. -/
def State.secId (s : State) (k : Nat) : Nat := ((s.scfg k).map (·.id)).getD 0

/-- The section state of record k. -/
def State.secState (s : State) (k : Nat) : Option SectionState := (s.sec k).state

/-- The incidents whose effects act (Table 6-4). -/
def State.acting (s : State) : List Incident := s.inu.table.filter (fun i => i.state.acts)

/-- A section is covered by a cut (4.4). -/
def State.cutCovers (s : State) (k : Nat) : Bool :=
  match s.scfg k with
  | some c => s.acting.any (fun i => i.effects.cut && coverOverlaps i.cover c.span)
  | none => false

/-- The breaker point of record k reads a value in the field image and is not stale. -/
def State.breakerReads (s : State) (k v : Nat) : Bool :=
  (List.range 64).any (fun n =>
    s.pointUse n == .breaker k && (s.imagePoint n).value == some v && !(s.imagePoint n).stale)

/-! ## Changes -/

/-- The state of record k changes; a change is reported to the RGE, the HOE and the SAR (R86). -/
def State.setSecState (s : State) (k : Nat) (st : Option SectionState) : State :=
  if (s.sec k).state == st then s else (s.updSec k (fun d => { d with state := st })).post (.sectionChanged k)

/-- Any section timer of record k is stopped and released. -/
def State.dropSecTimer (s : State) (k : Nat) : State :=
  (s.releaseOpt (s.sec k).timer).updSec k (fun d => { d with timer := none })

/-- A section timer is asked for record k; the answer says whether one was granted. -/
def State.askSecTimer (s : State) (k n : Nat) : State × Bool :=
  match s.requestTimer (.sectionTimer k) n with
  | (s1, some h) => (s1.updSec k (fun d => { d with timer := some h }), true)
  | (s1, none) => (s1, false)

/-- BREAKER is queued for record k (R76). -/
def State.breaker (s : State) (k : Nat) (close : Bool) : State := s.command (.breaker (s.secId k) close)

/-- An incident of section record k, with the section's span as cover. -/
def State.raiseSection (s : State) (k : Nat) (kind : IncKind) : State :=
  match s.scfg k with
  | some c => s.raiseOver kind (Loc.ofSection c.id) (some c.span)
  | none => s

/-- The condition of an incident of section record k has ended. -/
def State.endSection (s : State) (k : Nat) (kind : IncKind) : State :=
  s.post (.condEnd kind (Loc.ofSection (s.secId k)))

/-- Entry to LOCKED_OUT (R80). -/
def State.lockOut (s : State) (k : Nat) : State :=
  ((s.dropSecTimer k).setSecState k (some .lockedOut)).raiseSection k .sectionLockout

/-- Entry to ENERGIZED (R80): the SECTION_TRIP and SECTION_LOCKOUT conditions have ended. -/
def State.energize (s : State) (k : Nat) : State :=
  ((((s.dropSecTimer k).setSecState k (some .energized)).endSection k .sectionTrip).endSection k .sectionLockout)

/-- Isolation (R82, R84). -/
def State.isolate (s : State) (k : Nat) : State :=
  (((s.dropSecTimer k).breaker k false).updSec k (fun d => { d with resent := false })).setSecState k (some .isolated)

/-! ## Gates (R70 to R74) -/

/-- A good gate (R71, R73). -/
def State.goodGate (s : State) (k n : Nat) (c : SectionCfg) : State :=
  let d := s.sec k
  let good := min 3 (d.good + 1)
  let s1 := s.updSec k (fun d =>
    { d with
      im := some (gateCurrent c n)
      good := good
      bad := 0
      stale := if good == 3 || (!d.fault && d.im.isNone) then false else d.stale
      fault := if good == 3 then false else d.fault })
  if good == 3 && d.fault then s1.endSection k .transducerFault else s1

/-- A bad gate (R72). -/
def State.badGate (s : State) (k : Nat) : State :=
  let d := s.sec k
  let bad := min 3 (d.bad + 1)
  let s1 := s.updSec k (fun d =>
    { d with stale := true, good := 0, bad := bad, fault := d.fault || bad == 3 })
  if bad == 3 && !d.fault then s1.raiseSection k .transducerFault else s1

/-- The greatest count of a gate (R70). -/
abbrev gateMax : Nat := 65535

/-- The gate of record k completes with a count: the SAR re-evaluates the section (R74). -/
def State.completeGate (s : State) (k n : Nat) (c : SectionCfg) : State :=
  (if 1 ≤ n ∧ n < gateMax then s.goodGate k n c else s.badGate k).reevaluate k

/-- A gate completes in the present tick, or completed before: the next gate starts at that moment (R70; log 28). -/
def State.gateEnds (s : State) (k edges : Nat) : State :=
  match s.scfg k, (s.sec k).gateStart with
  | some c, some g =>
    if c.owner && decide (g + c.g < s.tickStart + cyclesPerTick) then
      let n := min gateMax ((s.sec k).gateCount + edges)
      let s1 : State := { s with refMoment := max s.refMoment (g + c.g) }
      (s1.updSec k (fun d => { d with gateStart := some (g + c.g), gateCount := 0 })).completeGate k n c
    else s
  | _, _ => s

/-- The converters of owned sections start their first gate (R70). -/
def State.startGates (s : State) : State :=
  s.sections.foldl (fun s k =>
    if s.owns k then s.updSec k (fun d => { d with gateStart := some s.refMoment, gateCount := 0 }) else s) s

/-! ## Breaker reports (R75 to R83) -/

/-- A closed report (Table 4-4). -/
def State.closedReport (s : State) (k : Nat) : State :=
  match (s.sec k).state with
  | none | some .recloseWait | some .lockedOut | some .reclosing => s.energize k
  | some .restoring => (s.updSec k (fun d => { d with attempts := [] })).energize k
  | some .isolated =>
    if (s.sec k).resent then s else (s.breaker k false).updSec k (fun d => { d with resent := true })
  | some .energized | some .tripped => s

/-- Greatest number of reclose attempts listed (Table 4-1). -/
abbrev attemptRoom : Nat := 2

/-- The reclose attempts that lie in the lockout window (R78). -/
def State.inWindow (s : State) (l : List Nat) : List Nat := l.filter (fun t => decide (s.runTime ≤ t + 600))

/-- A trip (R78). With one timer place left, the reclose timer of step 4 is asked for before the INU takes the
SECTION_TRIP of step 2 and asks for its escalation timer: R78 orders the requests and not their taking (DESIGN CHOICE,
log 79). -/
def State.trip (s : State) (k : Nat) : State :=
  let kept := s.inWindow (s.sec k).attempts
  let s1 := (s.raiseSection k .sectionTrip).updSec k (fun d => { d with attempts := kept })
  if attemptRoom ≤ kept.length then s1.lockOut k
  else
    match s1.askSecTimer k (((s.scfg k).map (·.rd)).getD 0) with
    | (s2, true) => s2.setSecState k (some .recloseWait)
    | (s2, false) => s2.lockOut k

/-- An open report (Table 4-4). -/
def State.openReport (s : State) (k : Nat) : State :=
  match (s.sec k).state with
  | none => s.setSecState k (some .isolated)
  | some .energized => s.trip k
  | some .isolated => s.updSec k (fun d => { d with resent := false })
  | some .recloseWait | some .reclosing | some .lockedOut | some .restoring | some .tripped => s

/-- A report of the breaker point of record k: values 2 to 15 are not reports of the breaker (R75); a record owned
elsewhere takes none (R69). -/
def State.breakerReport (s : State) (k v : Nat) : State :=
  if s.owns k then
    match v with
    | 0 => s.openReport k
    | 1 => s.closedReport k
    | _ => s
  else s

/-- Entry to RECLOSING or RESTORING with BREAKER CLOSE queued: a point that already reads 1 is taken at once (R80). -/
def State.commandClose (s : State) (k : Nat) (st : SectionState) : State :=
  let s1 := (s.breaker k true).setSecState k (some st)
  if s1.breakerReads k 1 then s1.closedReport k else s1

/-- The close allowance (R76). -/
abbrev closeAllowance : Nat := 30

/-- A reclose attempt joins the list. A section waits to reclose with at most one listed (R78), so that no attempt leaves
it here. -/
def joinAttempt (t : Nat) (l : List Nat) : List Nat :=
  let m := l ++ [t]
  m.drop (m.length - attemptRoom)

/-- The reclose delay expires in RECLOSE_WAIT (R79). -/
def State.reclose (s : State) (k : Nat) : State :=
  let s1 := s.dropSecTimer k
  match s1.askSecTimer k closeAllowance with
  | (s2, true) => (s2.updSec k (fun d => { d with attempts := joinAttempt s.runTime d.attempts })).commandClose k .reclosing
  | (s2, false) => s2.lockOut k

/-- The cuts changed: owned sections they cover are isolated (R82). Of several at one notification the section of the
lowest record index has its BREAKER OPEN queued first (DESIGN CHOICE, log 58). -/
def State.checkCuts (s : State) : State :=
  s.sections.foldl (fun s k =>
    if s.owns k && (s.sec k).state != some .isolated && s.cutCovers k then s.isolate k else s) s

/-- At the entry to LISTEN a breaker point that holds 0 or 1 and is not stale is taken as the first report (R77).
Several sections go by record index, lowest first: R77 gives no order among them (DESIGN CHOICE, log 84). -/
def State.firstBreakerReports (s : State) : State :=
  s.sections.foldl (fun s k =>
    if s.owns k then
      if s.breakerReads k 1 then s.closedReport k
      else if s.breakerReads k 0 then s.openReport k
      else s
    else s) s

/-- ISOLATE_SECTION (R84). -/
def State.isolateDirective (s : State) (id : Nat) : State × AnswerResult :=
  match s.secIndex id with
  | none => (s, .unknown)
  | some k => if s.owns k then (s.isolate k, .done) else (s, .refused)

/-- RESTORE_SECTION (R85). -/
def State.restoreDirective (s : State) (id : Nat) : State × AnswerResult :=
  match s.secIndex id with
  | none => (s, .unknown)
  | some k =>
    if !s.owns k then (s, .refused)
    else if !((s.sec k).state == some .isolated || (s.sec k).state == some .lockedOut) || s.cutCovers k then (s, .refused)
    else
      match s.askSecTimer k closeAllowance with
      | (s1, true) => (s1.commandClose k .restoring, .done)
      | (s1, false) => (s1, .refused)

/-! ## Mirrors (R87, R88) -/

/-- A mirror takes an owner's entry. -/
def State.mirrorEntry (s : State) (k : Nat) (e : SectionEntry) : State :=
  (s.updSec k (fun d => { d with im := e.im, stale := e.stale })).setSecState k e.state

/-- Mirrors take the entries of a STATUS from their owner (R87), by section record index, lowest first: R87 gives no
order among several (DESIGN CHOICE, log 84). -/
def State.updateMirrors (s : State) (sender : Nat) (b : StatusBody) : State :=
  s.sections.foldl (fun s k =>
    if !s.owns k && s.partnerOf k == sender then
      match b.sections.find? (fun e => e.id == s.secId k) with
      | some e => s.mirrorEntry k e
      | none => s
    else s) s

/-- The owner has become ABSENT (R88). -/
def State.staleMirrors (s : State) (n : Nat) : State :=
  s.sections.foldl (fun s k =>
    if !s.owns k && s.partnerOf k == n then s.updSec k (fun d => { d with stale := true }) else s) s

/-- The section entries of a STATUS (R74), by section record index, lowest first: R74 and Table 12-3 give no order
among them (DESIGN CHOICE, log 84). -/
def State.sectionEntries (s : State) : List SectionEntry :=
  s.sections.filterMap (fun k =>
    match s.scfg k with
    | some c =>
      if c.owner then some { id := c.id, stale := (s.sec k).stale, im := (s.sec k).im, state := (s.sec k).state } else none
    | none => none)

end Sys2Proof.Machine
end

