-- ==== Sys2Proof/Machine/Regulation.lean ====
section
/-! DEFINITION. Regulation Engine (02): the departure computation, the dwell channel, holds, grants, authority,
departures, predictions. -/

namespace Sys2Proof.Machine

open Sys2Proof

/-! ## Context (R23) -/

/-- A context that regulates a record newly (R23). -/
def Ctx.activate (x : Ctx) (tag : Nat) : Ctx :=
  { x with
    tag := some tag
    tr := none
    use := .stopped
    markPassed := false
    targetReached := false
    outstanding := false
    grantHeld := false
    powerWait := none
    holdSet := []
    heldFromAuth := false }

/-- An idle context: serial and latest braking start stay. -/
def Ctx.idle (x : Ctx) : Ctx := { x.activate 0 with tag := none }

/-- The power wait channel of platform p is stopped and released. -/
def State.dropPowerWait (s : State) (p : Nat) : State :=
  (s.releaseOpt (s.ctx p).powerWait).updCtx p (fun x => { x with powerWait := none })

/-- The context of platform p becomes idle; its dwell channel is stopped. -/
def State.idleCtx (s : State) (p : Nat) : State := ((s.dropPowerWait p).stopDwell p).updCtx p Ctx.idle

/-- Sets the channel use of platform p. -/
def State.setUse (s : State) (p : Nat) (u : ChannelUse) : State := s.updCtx p (fun x => { x with use := u })

/-- The record being regulated at platform p. -/
def State.regulated (s : State) (p : Nat) : Option TrainRec := ((s.ctx p).tag).bind s.recOf

/-! ## Inputs (R24, R25) -/

/-- Tnext and Pd_next of platform p (R25). -/
def State.following (s : State) (c : PlatformCfg) : Option (Int × Int) :=
  if c.turnback then none
  else
    match (sortByAge (s.approaching c.dir)).find? (fun r => (s.plan r).isSome) with
    | some r =>
      match s.predictedArrival r, s.plan r with
      | some t, some pl => some (t + c.dp, pl.1 + c.dp)
      | _, _ => none
    | none =>
      ((s.upstreamPrediction c).filter (fun x => x.run == 0 || !s.runCarried x.run)).map (fun x =>
        ((x.departure : Int) + c.approach + c.dp, (x.origin : Int) + c.offset + c.dp))

/-- Aprev and Pd_prev, present together (R26). -/
def PlatDyn.previous (d : PlatDyn) : Option (Int × Int) :=
  match d.aprev, d.pdPrev with
  | some a, some b => some ((a : Int), (b : Int))
  | _, _ => none

/-- Balance point B (R26). -/
def balancePoint (prev next : Option (Int × Int)) (pd : Int) : Option Int :=
  match prev, next with
  | some (aprev, _), some (tnext, _) => some ((aprev + tnext) / 2)
  | some (aprev, pdPrev), none => some (aprev + (pd - pdPrev))
  | none, some (tnext, pdNext) => some (tnext - (pdNext - pd))
  | none, none => none

/-- Timetable weight; the headway weight is 16 less it (R27). -/
def timetableWeight (c : PlatformCfg) (mode : RegMode) (level : Nat) (b : Option Int) : Nat :=
  if b.isNone then 16
  else if c.turnback then 16
  else if 3 ≤ level then 0
  else
    match mode with
    | .timetable => 16
    | .headway => 0
    | .blended => c.wtt

/-- Regulated dwell Dr (R28). -/
def regulatedDwell (c : PlatformCfg) (w : Nat) (aa : Nat) (pd : Int) (b : Option Int) : Int :=
  let base : Int := (aa : Int) + c.dp
  let ett := pd - base
  let ehw := match b with
    | some b => b - base
    | none => 0
  let adj := ((w : Int) * ett + ((16 : Int) - w) * ehw).tdiv 16
  clampInt c.dmin ((c.dp : Int) + c.hmax) (c.dp + adj)

/-- Platform q lies in the section an id names (R29). -/
def State.liesIn (s : State) (id q : Nat) : Bool :=
  match s.secIndex id, s.pcfg q with
  | some k, some c =>
    match s.scfg k with
    | some x => spanHas x.span c.point
    | none => false
  | _, _ => false

/-- The braking starts in a section (R29). -/
def State.brakingStarts (s : State) (id : Nat) : List Int :=
  let coming := (s.ttu.table.filter (fun r => r.state == .approaching)).filterMap (fun r =>
    match s.candidatePlatform r.dir with
    | some q =>
      match s.pcfg q, s.predictedArrival r with
      | some c, some t => if s.liesIn id q then some (t - c.bk) else none
      | _, _ => none
    | none => none)
  let captured := s.platforms.filterMap (fun q =>
    if s.liesIn id q then (s.ctx q).latestBrake.map (fun t => (t : Int)) else none)
  coming ++ captured

/-- The earliest of braking starts within the regen window. -/
def earliestMatch (tr : Int) (rw : Nat) (l : List Int) : Option Int :=
  (l.filter (fun t => decide (tr - rw ≤ t ∧ t ≤ tr + rw))).foldl (fun best t =>
    match best with
    | none => some t
    | some b => some (min b t)) none

/-- Tr moved to a braking start, within the dwell's bounds (R29). -/
def regenTarget (c : PlatformCfg) (aa : Nat) (tb : Int) : Int :=
  max ((aa : Int) + c.dmin) (min tb ((aa : Int) + c.dp + c.hmax))

/-- Target Tr of R28 and R29, with the regen match; absent when R31 applies. -/
def State.target (s : State) (p : Nat) (c : PlatformCfg) (r : TrainRec) : Option (Nat × Bool) :=
  match s.now, r.aa with
  | some _, some aa =>
    let pd := (planAt c r).2
    let b := balancePoint (s.plat p).previous (s.following c) pd
    let w := timetableWeight c (s.rge.modes.getD p .blended) s.inu.level b
    let tr := (aa : Int) + regulatedDwell c w aa pd b
    match earliestMatch tr c.rw (s.brakingStarts c.onward) with
    | some tb => some ((regenTarget c aa tb).toNat, true)
    | none => some (tr.toNat, false)
  | _, _ => none

/-! ## Hold conditions (R38) -/

/-- A holding incident acts at platform p. -/
def State.incidentHolds (s : State) (c : PlatformCfg) : Bool :=
  s.acting.any (fun i => i.effects.hold && (coverOverlaps i.cover c.onwardSpan || coverHas i.cover c.point))

/-- The hold conditions that hold for a record at a platform, each read from the state that owns it (R38). -/
def State.holdConds (s : State) (c : PlatformCfg) (r : TrainRec) : List HoldCond :=
  (if r.consoleHold then [.consoleHold] else []) ++ (if r.withdraw then [.withdraw] else [])
    ++ (if s.incidentHolds c then [.incident] else []) ++ (if s.energizedId c.onward then [] else [.deadSection])
    ++ (if s.inu.level == 7 then [.level] else []) ++ (if s.slc.link == .lost then [.link] else [])

/-! ## The held cue (R41) -/

/-- A train's request to the ANU (Table 7-4). -/
def trainRequest (template priority p : Nat) (r : TrainRec) (x : Source) (flag : Option (Nat × AnnouncedFlag)) : AnnReq :=
  { template := template, priority := priority, zones := BitVec.ofNat 5 (2 ^ p), slots := [r.dest, p, r.run, 0],
    repeatCount := 0, interval := 0, source := x, flag := flag }

/-- The held cue expires in HELD: the HELD announcement is asked for. -/
def State.cueExpires (s : State) (p : Nat) (r : TrainRec) : State :=
  s.post (.announce (trainRequest s.cfg.announce.srcHeld 2 p r (.hold r.run) (some (r.tag, .held))))

/-- The held cue is started with a load, when the record's announced-held flag is clear; a load of 0 or below expires at
once. R41 gives no load above a channel's 65,535: such a load is set as it is (DESIGN CHOICE, log 55). -/
def State.startCue (s : State) (p : Nat) (tag : Nat) (load : Int) : State :=
  match s.recOf tag with
  | none => s
  | some r =>
    if r.announcedHeld then s
    else if load ≤ 0 then s.cueExpires p r
    else (s.loadDwell p load.toNat none).setUse p .cueWait

/-- The load of a cue at a hold arising with the target reached. -/
def State.cueLoad (s : State) (p : Nat) : Int :=
  match (s.ctx p).tr, s.now with
  | some tr, some now => (tr : Int) + 300 - (now : Int)
  | _, _ => 300

/-! ## Holds arising and clearing (R39, R40, R45) -/

/-- The door-closing request of a run is cancelled at the ANU (R39, R42, R43). -/
def State.cancelDoor (s : State) (run : Nat) : State :=
  s.post (.cancelSource (.train run) (some s.cfg.announce.srcDoor))

/-- The grant of platform p is given back: grant held cleared, the record's grant time absent. -/
def State.giveBack (s : State) (p : Nat) (r : TrainRec) : State :=
  ((((s.returnHeld p).updCtx p (fun x => { x with grantHeld := false })).updRec r.tag (fun x =>
    { x with grantTime := none })).cancelDoor r.run)

/-- The outstanding ask of platform p is cancelled, and its power wait channel released. -/
def State.dropAsk (s : State) (p : Nat) : State :=
  ((s.cancelAsk p).updCtx p (fun x => { x with outstanding := false })).dropPowerWait p

/-- The actions of a hold arising by the record's state (Table 2-4). -/
def State.holdActions (s : State) (p : Nat) (r : TrainRec) : State :=
  match r.state with
  | .asking => s.dropAsk p
  | .granted =>
    let s1 := s.giveBack p r
    if (s1.ctx p).use == .authWait then (s1.stopDwell p).setUse p .stopped else s1
  | .authorized => ((s.authorityOff p).giveBack p r).updCtx p (fun x => { x with heldFromAuth := true })
  | .dwelling | .held | .approaching | .handing | .orphaned | .spare => s

/-- A hold arises for the context of platform p (R39): HELD, or SPARE when the withdraw flag is in the hold set (R45).
-/
def State.holdArises (s : State) (p : Nat) : State :=
  match s.regulated p with
  | none => s
  | some r =>
    if r.state.regulated then
      let s1 := s.holdActions p r
      if (s1.ctx p).holdSet.contains .withdraw then (s1.moveRec r.tag r.state .spare).idleCtx p
      else if r.state == .held then s1
      else
        let s2 := s1.moveRec r.tag r.state .held
        if (s2.ctx p).targetReached then s2.startCue p r.tag (s2.cueLoad p) else s2
    else s

/-- The ask of platform p is made (R34, R40): next serial, ready time now, demand, credit; a power wait channel with Pw
above 0. -/
def State.makeAsk (s : State) (p : Nat) (c : PlatformCfg) (r : TrainRec) : State :=
  let serial := wrap8 ((s.ctx p).serial + 1)
  let credit :=
    match s.now, (s.ctx p).tr with
    | some now, some tr => if r.regenMatched && decide (now ≤ tr + c.rw) then s.cfg.rc else 0
    | _, _ => 0
  let s1 := s.updCtx p (fun x => { x with serial := serial, outstanding := true })
  let s2 := s1.startAsk p c.onward serial s.now (s.cfg.demand r.pclass) credit
  if c.pw = 0 then s2
  else
    match s2.requestTimer (.powerWait p) c.pw with
    | (s3, h) => s3.updCtx p (fun x => { x with powerWait := h })

/-- The hold clears for the context of platform p (R40; log 16). -/
def State.holdClears (s : State) (p : Nat) (c : PlatformCfg) : State :=
  match s.regulated p with
  | none => s
  | some r =>
    if r.state == .held then
      let s1 := if (s.ctx p).use == .cueWait then (s.stopDwell p).setUse p .stopped else s
      let s2 := (s1.updCtx p (fun x => { x with heldFromAuth := false })).post (.cancelSource (.hold r.run) none)
      if (s2.ctx p).markPassed then (s2.moveRec r.tag .held .asking).makeAsk p c r
      else s2.moveRec r.tag .held .dwelling
    else s

/-- The hold set of platform p is recomputed at a notification (R38): its edges arise and clear, and a withdraw flag
that joins a non-empty set acts (R45). -/
def State.recomputeHold (s : State) (p : Nat) : State :=
  match s.pcfg p, s.regulated p with
  | some c, some r =>
    let before := (s.ctx p).holdSet
    let now := s.holdConds c r
    let s1 := s.updCtx p (fun x => { x with holdSet := now })
    if before.isEmpty && !now.isEmpty then s1.holdArises p
    else if !before.isEmpty && now.isEmpty then s1.holdClears p c
    else if now.contains .withdraw && !before.contains .withdraw then s1.holdArises p
    else s1
  | _, _ => s

/-- Every active context's hold set is recomputed at a notification (R38). R38 gives no order among several contexts:
they go by platform index, lowest first, and so do the asks, AUTHORITY OFF and POWER_RETURNs that follow (DESIGN
CHOICE, log 77). -/
def State.recomputeHolds (s : State) : State := s.platforms.foldl State.recomputeHold s

/-! ## The mark, the answers, the authority (R33 to R37) -/

/-- The mark (R34). -/
def State.takeTheMark (s : State) (p : Nat) (c : PlatformCfg) : State :=
  let s1 := s.updCtx p (fun x => { x with markPassed := true })
  match s1.regulated p with
  | some r => if r.state == .dwelling then (s1.moveRec r.tag .dwelling .asking).makeAsk p c r else s1
  | none => s1

/-- The authority time (R37). -/
def State.authorityTime (s : State) (p : Nat) (c : PlatformCfg) : State :=
  match s.regulated p with
  | none => s
  | some r =>
    let conds := s.holdConds c r
    if conds.isEmpty then
      ((s.command (.authority p true)).moveRec r.tag .granted .authorized).setUse p .stopped
    else (s.updCtx p (fun x => { x with holdSet := conds })).holdArises p

/-- The authority after a grant (R36; log 14). An AUTH_WAIT load that takes the place of a TO_TR load leaves "target
reached" clear, also when Tr passes during it: R33 sets the mark at a TO_TR expiry alone (DESIGN CHOICE, log 54). -/
def State.arrangeAuthority (s : State) (p : Nat) (c : PlatformCfg) : State :=
  let x := s.ctx p
  if x.use == .toTr && !x.targetReached && decide (c.dc ≤ (s.chan p).count) then s
  else if c.dc = 0 then s.authorityTime p c
  else (s.loadDwell p c.dc none).setUse p .authWait

/-- A GRANT reaches the RGE (R36). One that matches no outstanding ask is returned at once; so is one that the asker
record does not hold, whatever its serial: it answers an ask cancelled or replaced (R100). -/
def State.takeGrant (s : State) (p serial : Nat) (origin : Route) (sec : Nat) : State :=
  match s.pcfg p, s.regulated p with
  | some c, some r =>
    if r.state == .asking && (s.ctx p).outstanding && (s.ctx p).serial == serial && s.holdsGrant p serial origin sec then
      let s1 := (s.moveRec r.tag .asking .granted).updRec r.tag (fun x => { x with grantTime := s.now })
      let s2 := (s1.updCtx p (fun x => { x with outstanding := false, grantHeld := true })).dropPowerWait p
      let s3 := s2.post (.announce (trainRequest s.cfg.announce.srcDoor 1 p r (.train r.run) none))
      s3.arrangeAuthority p c
    else s.returnGrant p serial origin sec
  | _, _ => s.returnGrant p serial origin sec

/-! ## The computation (R28 to R33) -/

/-- The dwell channel is started (R33): answers whether the mark is taken at once. A remaining time above 65,535 is
loaded as it is: the spec gives no load for it, and a channel counts no more than 16 bits (DESIGN CHOICE, log 55). -/
def State.startDwell (s : State) (p : Nat) (c : PlatformCfg) (remaining : Int) : State × Bool :=
  if (c.dc : Int) < remaining then ((s.loadDwell p remaining.toNat (some c.dc)).setUse p .toTr, false)
  else if 0 < remaining then ((s.loadDwell p remaining.toNat none).setUse p .toTr, true)
  else (s.updCtx p (fun x => { x with use := .stopped, targetReached := true, markPassed := true }), true)

/-- The hold conditions at the moment of computation fill the hold set, and the hold arises (R33). -/
def State.holdAtComputation (s : State) (p : Nat) (c : PlatformCfg) : State :=
  match s.regulated p with
  | none => s
  | some r =>
    let conds := s.holdConds c r
    if conds.isEmpty then s else (s.updCtx p (fun x => { x with holdSet := conds })).holdArises p

/-- The departure computation for a record at platform p (R23 to R33; log 15). -/
def State.compute (s : State) (p tag : Nat) : State :=
  match s.pcfg p, s.recOf tag with
  | some c, some r =>
    let s1 := (s.idleCtx p).updCtx p (fun x => x.activate tag)
    let tr := s1.target p c r
    let s2 := s1.updCtx p (fun x => { x with tr := tr.map (·.1) })
    let s3 := s2.updRec tag (fun x =>
      { x with tr := tr.map (·.1), regenMatched := match tr with | some (_, true) => true | _ => x.regenMatched })
    let remaining : Int :=
      match tr, s.now with
      | some (t, _), some now => (t : Int) - (now : Int)
      | _, _ => c.dp
    let x := s3.startDwell p c remaining
    let s4 := x.1.holdAtComputation p c
    if x.2 && (s4.ctx p).tag == some tag then s4.takeTheMark p c else s4
  | _, _ => s

/-! ## Expiries of the dwell channel (R33, R37, R41) and of the power wait (R35) -/

/-- A TO_TR expiry. -/
def State.targetExpires (s : State) (p : Nat) (c : PlatformCfg) : State :=
  let s1 := s.updCtx p (fun x => { x with targetReached := true, use := .stopped })
  match s1.regulated p with
  | none => s1
  | some r =>
    match r.state with
    | .granted => s1.authorityTime p c
    | .held => s1.startCue p r.tag 300
    | .dwelling | .asking | .authorized | .approaching | .handing | .orphaned | .spare => s1

/-- An AUTH_WAIT expiry; "target reached" stays as it stands (DESIGN CHOICE, log 54). -/
def State.authExpires (s : State) (p : Nat) (c : PlatformCfg) : State :=
  let s1 := s.setUse p .stopped
  match s1.regulated p with
  | some r => if r.state == .granted then s1.authorityTime p c else s1
  | none => s1

/-- A CUE_WAIT expiry: ignored in any state but HELD. -/
def State.cueWaitExpires (s : State) (p : Nat) : State :=
  let s1 := s.setUse p .stopped
  match s1.regulated p with
  | some r => if r.state == .held then s1.cueExpires p r else s1
  | none => s1

/-- A power wait expiry: in ASKING the outstanding ask becomes an override ask (R35, R102). -/
def State.powerWaitExpires (s : State) (p : Nat) : State :=
  let s1 := s.dropPowerWait p
  match s1.regulated p with
  | some r => if r.state == .asking && (s1.ctx p).outstanding then s1.overrideAsk p else s1
  | none => s1

/-! ## Berth falls (R14, R42 to R44) -/

/-- LATE_TRAIN when the lateness exceeds the late threshold (R44). -/
def State.testLate (s : State) (p : Nat) (tag : Nat) : State :=
  match s.cfg.incidents, s.recOf tag with
  | some ic, some r =>
    match r.lateness with
    | some l => if (ic.lateThreshold : Int) < l then s.raise .lateTrain (Loc.ofRunAt r.run p) else s
    | none => s
  | _, _ => s

/-- The departure capture (R42 steps 1, 2 and 4, R14): the record leaves its berth for HANDING. -/
def State.captureDeparture (s : State) (p : Nat) (c : PlatformCfg) (r : TrainRec) (ad : Option Nat) : State :=
  let pd := (planAt c r).2
  ((s.updRec r.tag (fun x =>
      { x with
        lateness := match ad with
          | some a => some (latenessOf ((a : Int) - pd))
          | none => x.lateness
        platform := none
        grantTime := none })).moveRec r.tag r.state .handing).updPlat p (fun d =>
    { d with aprev := ad, pdPrev := some pd.toNat, occupant := none })

/-- The ask or grant of a record that leaves without authority is ended (R43). -/
def State.endStart (s : State) (p : Nat) (r : TrainRec) : State :=
  let s1 := if (s.ctx p).outstanding then s.dropAsk p else s.dropPowerWait p
  let s2 := if (s1.ctx p).grantHeld then s1.returnHeld p else s1
  s2.cancelDoor r.run

/-- A regular departure (R42). -/
def State.departRegular (s : State) (p : Nat) (c : PlatformCfg) (r : TrainRec) (ad : Option Nat) : State :=
  (((((s.authorityOff p).captureDeparture p c r ad).cancelDoor r.run).keepStart p).idleCtx p)

/-- A departure without authority (R43). -/
def State.departWithout (s : State) (p : Nat) (c : PlatformCfg) (r : TrainRec) (ad : Option Nat) : State :=
  let s1 := (s.captureDeparture p c r ad).updRec r.tag (fun x => { x with departedWithout := true })
  let s2 := s1.endStart p r
  let s3 := if r.state == .held && (s2.ctx p).heldFromAuth then s2.authorityOff p else s2
  s3.idleCtx p

/-- A berth fall at platform p with its stamp (R9, R14). Before RUNNING it changes the occupancy only. -/
def State.fallAt (s : State) (p : Nat) (stamp : Option Nat) : State :=
  let s1 := s.vacate p
  if s1.isRunning then
    match s1.pcfg p, (s1.plat p).occupant.bind s1.recOf with
    | some c, some r =>
      if r.state == .spare then s1.removeRec r.tag
      else if r.state == .authorized then
        ((s1.departRegular p c r stamp).testLate p r.tag).post (.enteredHanding r.tag)
      else if r.state.regulated then
        ((s1.departWithout p c r stamp).testLate p r.tag).post (.enteredHanding r.tag)
      else s1
    | _, _ => s1
  else s1

/-- The tag of an active context's record is gone (R45). -/
def State.contextGone (s : State) (p : Nat) : State :=
  let x := s.ctx p
  let s1 := if x.grantHeld then s.returnHeld p else s
  let s2 := if x.outstanding then s1.dropAsk p else s1
  let s3 := if (x.grantHeld && x.use == .stopped) || x.heldFromAuth then s2.authorityOff p else s2
  s3.idleCtx p

/-- Contexts naming a tag that is gone. -/
def State.contextsGone (s : State) (tag : Nat) : State :=
  s.platforms.foldl (fun s p => if (s.ctx p).tag == some tag then s.contextGone p else s) s

/-! ## Braking starts (R13, R30) -/

/-- A brake-point rise for platform p in RUNNING. -/
def State.brakeAt (s : State) (p : Nat) (stamp : Option Nat) : State :=
  match s.pcfg p with
  | none => s
  | some c =>
    if s.isRunning then
      let s1 := match stamp with
        | some t => s.updCtx p (fun x => { x with latestBrake := some t })
        | none => s
      match s1.oldestApproaching (arrivalDirOf c) with
      | some r =>
        if r.announcedApproach then s1
        else s1.post (.announce (trainRequest s.cfg.announce.srcApproach 1 p r (.train r.run) (some (r.tag, .approach))))
      | none => s1
    else s

/-! ## Modes and predictions (R27, R46) -/

/-- SET_MODE (R27). -/
def State.setModeDirective (s : State) (mode : Nat) (platform : Option Nat) : State × AnswerResult :=
  match (match mode with
    | 0 => some RegMode.timetable
    | 1 => some RegMode.headway
    | 2 => some RegMode.blended
    | _ => none) with
  | none => (s, .refused)
  | some m =>
    match platform with
    | none => ({ s with rge := { s.rge with modes := s.rge.modes.map (fun _ => m) } }, .done)
    | some p =>
      if p < s.platformCount then ({ s with rge := { s.rge with modes := s.rge.modes.set p m } }, .done)
      else (s, .refused)

/-- The departure that R46 step 1 predicts of a berthed record with target departure `tr`, by its state. -/
def berthedDepartureAt (c : PlatformCfg) (st : TrainState) (tr now : Nat) : Option Nat :=
  match st with
  | .dwelling | .asking | .granted => some tr
  | .held => some (max tr (now + c.dc))
  | .authorized => some now
  | .approaching | .handing | .orphaned | .spare => none

/-- The predicted departure of the record regulated at platform p. With Tr absent it is passed over, whatever its state
(R46). -/
def State.berthedDeparture (s : State) (p : Nat) (c : PlatformCfg) (r : TrainRec) (now : Nat) : Option Nat :=
  (s.ctx p).tr.bind (fun tr => berthedDepartureAt c r.state tr now)

/-- The predictions of the berthed trains of a direction, by platform. -/
def State.berthedPredictions (s : State) (d : Dir) (now : Nat) : List Prediction :=
  s.platforms.filterMap (fun p =>
    match s.pcfg p, s.regulated p with
    | some c, some r =>
      if c.dir == d then
        (s.berthedDeparture p c r now).map (fun t => { run := r.run, origin := r.origin, departure := t })
      else none
    | _, _ => none)

/-- The earliest prediction; among equals the first. -/
def earliestPrediction (l : List Prediction) : Option Prediction :=
  l.foldl (fun best x =>
    match best with
    | none => some x
    | some b => if x.departure < b.departure then some x else some b) none

/-- The prediction of an APPROACHING record (R46 step 2); a predicted departure below service time 0 is given as 0
(DESIGN CHOICE, log 56). -/
def State.approachPrediction (s : State) (r : TrainRec) : Option Prediction :=
  match (s.candidatePlatform r.dir).bind s.pcfg, s.predictedArrival r with
  | some c, some t => if c.turnback then none else some { run := r.run, origin := r.origin, departure := (t + c.dp).toNat }
  | _, _ => none

/-- The next-handover prediction of a direction (R46). R23 has the RGE take no events before RUNNING, and R46, R152
and R171 ask it for its part at each status period, in REBUILD too: it is given in a STATUS of REBUILD as well, where
only APPROACHING records yield one (DEDUCED, log 78). -/
def State.predictionFor (s : State) (d : Dir) : Option Prediction :=
  match s.now with
  | none => none
  | some now =>
    match earliestPrediction (s.berthedPredictions d now) with
    | some x => some x
    | none => (sortByAge (s.approaching d)).findSome? s.approachPrediction

end Sys2Proof.Machine
end

