-- ==== Sys2Proof/Machine/Handover.lean ====
section
/-! DEFINITION. Handover Engine (03): offering and taking trains, histories, stall watches, the rebuild. -/

namespace Sys2Proof.Machine

open Sys2Proof

/-! ## Histories (R49) -/

/-- Entries of a history. -/
abbrev historyRoom : Nat := 8

/-- An entry joins a history; the oldest leaves when a ninth joins. -/
def joinHistory {α : Type} (x : α) (l : List α) : List α :=
  let m := l ++ [x]
  m.drop (m.length - historyRoom)

/-- The record as a HANDOVER carries it (R50). -/
def TrainRec.carried (r : TrainRec) : Carried :=
  { run := r.run, dir := r.dir, origin := r.origin, dest := r.dest, pclass := r.pclass, lateness := r.lateness,
    consoleHold := r.consoleHold, withdraw := r.withdraw, departedWithout := r.departedWithout, incRef := r.incRef }

/-! ## Handover contexts -/

/-- The handover context of a tag. -/
def State.hctx (s : State) (tag : Nat) : Option HandoverCtx := s.hoe.ctxs.find? (fun x => x.tag == tag)

/-- Changes the handover context of a tag. -/
def State.updHctx (s : State) (tag : Nat) (f : HandoverCtx → HandoverCtx) : State :=
  { s with hoe := { s.hoe with ctxs := s.hoe.ctxs.map (fun x => if x.tag == tag then f x else x) } }

/-- Closes the handover context of a tag. -/
def State.closeHctx (s : State) (tag : Nat) : State :=
  { s with hoe := { s.hoe with ctxs := s.hoe.ctxs.filter (fun x => x.tag != tag) } }

/-- The retry timer of a context is stopped and released. -/
def State.dropRetry (s : State) (tag : Nat) : State :=
  (s.releaseOpt ((s.hctx tag).bind (·.timer))).updHctx tag (fun x => { x with timer := none })

/-- A retry timer is asked for a context; refused, the fallback of R51 applies. -/
def State.askRetry (s : State) (tag n : Nat) : State :=
  match (s.dropRetry tag).requestTimer (.handoverRetry tag) n with
  | (s1, h) => s1.updHctx tag (fun x => { x with timer := h })

/-- Sends the HANDOVER of a record afresh (R50). -/
def State.sendHandover (s : State) (tag : Nat) : State :=
  match s.recOf tag, s.hctx tag with
  | some r, some x =>
    (s.updHctx tag (fun x => { x with carried := r.carried })).send (s.cfg.downstream r.dir)
      (.handover { carried := r.carried, seq := x.seq })
  | _, _ => s

/-- A record has entered HANDING from a berthed state: a context is opened, and the first HANDOVER sent (R48, R50). -/
def State.openHandover (s : State) (tag : Nat) : State :=
  match s.recOf tag with
  | none => s
  | some r =>
    let seq := ((s.hoeDir r.dir).sendCtr).getD 0
    let x : HandoverCtx :=
      { tag := tag, seq := seq, attempts := 1, timer := none, phase := .first, reason := none, carried := r.carried }
    let s1 := s.updHoeDir r.dir (fun h => { h with sendCtr := some (wrap8 (seq + 1)) })
    let s2 : State := { s1 with hoe := { s1.hoe with ctxs := s1.hoe.ctxs ++ [x] } }
    (s2.sendHandover tag).askRetry tag 20

/-- The record becomes ORPHANED with reason LOST, and HANDOVER_LOST is raised (R55). -/
def State.orphanLost (s : State) (tag run : Nat) : State :=
  (((s.dropRetry tag).moveRec tag .handing .orphaned).updHctx tag (fun x =>
    { x with phase := .orphanWait, reason := some .lost })).raise .handoverLost (Loc.ofRun run)

/-- The attempt in flight of a context in phase FIRST has failed (R51). -/
def State.failAttempt (s : State) (x : HandoverCtx) : State :=
  if x.attempts < 4 then
    ((s.updHctx x.tag (fun y => { y with attempts := y.attempts + 1 })).sendHandover x.tag).askRetry x.tag 20
  else s.orphanLost x.tag x.carried.run

/-- An orphan retry starts (R56). -/
def State.startOrphanRetry (s : State) (tag : Nat) : State :=
  (((s.moveRec tag .orphaned .handing).sendHandover tag).updHctx tag (fun x => { x with phase := .orphanRetry })).askRetry
    tag 20

/-- An orphan retry ends as failed (R56). -/
def State.endOrphanRetry (s : State) (tag : Nat) : State :=
  ((s.dropRetry tag).moveRec tag .handing .orphaned).updHctx tag (fun x => { x with phase := .orphanWait })

/-- The first-phase attempt of a tag has failed: its timer is released first. -/
def State.retryExpires (s : State) (tag : Nat) : State :=
  let s1 := s.dropRetry tag
  match s1.hctx tag with
  | some x => s1.failAttempt x
  | none => s1

/-- A retry timer's expiry, by the phase of its context (R51, R56). -/
def State.retryEnds (s : State) (tag : Nat) : State :=
  match s.hctx tag with
  | some x =>
    match x.phase with
    | .first => s.retryExpires tag
    | .orphanRetry => s.endOrphanRetry tag
    | .orphanWait => s
  | none => s

/-- The context that a TAKEOVER or REFUSAL of the downstream node matches (R52); a node in CONSOLE role takes neither
(R47). -/
def State.matchHandover (s : State) (sender run : Nat) (d : Dir) (seq : Nat) : Option HandoverCtx :=
  if s.isStation && sender == s.cfg.downstream d then
    s.hoe.ctxs.find? (fun x =>
      x.seq == seq && match s.recOf x.tag with | some r => r.run == run && r.dir == d | none => false)
  else none

/-- The last taken-over sequence after a handover has ended (R48). -/
def newerTaken (last : Option Nat) (seq : Nat) : Option Nat :=
  match last with
  | some l => if seqNewer seq l then some l else some seq
  | none => some seq

/-- A TAKEOVER ends a handover (R52). -/
def State.endHandover (s : State) (d : Dir) (x : HandoverCtx) : State :=
  let s1 := (s.dropRetry x.tag).updHoeDir d (fun h =>
    { h with
      sent := joinHistory { carried := x.carried, seq := x.seq } h.sent
      lastTaken := newerTaken h.lastTaken x.seq })
  let s2 := (s1.closeHctx x.tag).removeRec x.tag
  if x.reason == some OrphanReason.lost then s2.post (.condEnd .handoverLost (Loc.ofRun x.carried.run)) else s2

/-- A REFUSAL that matches a context (R53, R54, R56). -/
def State.takeRefusal (s : State) (x : HandoverCtx) (duplicate : Bool) : State :=
  match x.phase with
  | .orphanWait => s
  | .orphanRetry => s.endOrphanRetry x.tag
  | .first =>
    if duplicate then
      (((s.dropRetry x.tag).raise .runConflict (Loc.ofRun x.carried.run)).moveRec x.tag .handing .orphaned).updHctx x.tag
        (fun y => { y with phase := .orphanWait, reason := some .conflict })
    else if x.attempts < 4 then s.askRetry x.tag 10
    else s.orphanLost x.tag x.carried.run

/-- What a STATUS of the downstream node does for one context (R51, R56). A STATUS at which the fourth attempt fails by
the fallback of R51 starts no orphan retry in the same event: the spec does not say, and the retry starts at the next
STATUS (DESIGN CHOICE, log 47). -/
def State.downstreamHeard (s : State) (x : HandoverCtx) : State :=
  match x.phase with
  | .first => if x.timer.isNone then s.failAttempt x else s
  | .orphanWait => s.startOrphanRetry x.tag
  | .orphanRetry => if x.timer.isNone then (s.endOrphanRetry x.tag).startOrphanRetry x.tag else s

/-- A STATUS from a node reaches the HOE. Of several records retried at it the one whose handover context was opened first
goes first: R56 gives no order (DESIGN CHOICE, log 66). -/
def State.hoeStatus (s : State) (sender : Nat) : State :=
  s.hoe.ctxs.foldl (fun st x =>
    match s.recOf x.tag with
    | some r => if s.cfg.downstream r.dir == sender then st.downstreamHeard x else st
    | none => st) s

/-! ## Stall watches (R61 to R63) -/

/-- Every section feeding the approach span of a direction is ENERGIZED (R62). -/
def State.feedOk (s : State) (d : Dir) : Bool :=
  match s.cfg.approachSpan d with
  | none => true
  | some a =>
    s.sections.all (fun k =>
      match s.scfg k with
      | some c => !spanOverlaps c.span a || (s.sec k).state == some .energized
      | none => true)

/-- Starts the stall watch of a record in APPROACHING (R61). -/
def State.startWatch (s : State) (tag : Nat) : State :=
  match s.recOf tag with
  | none => s
  | some r =>
    match (s.candidatePlatform r.dir).bind s.pcfg with
    | none => s
    | some c =>
      match s.requestTimer (.stallWatch tag) (c.approach * 3 / 2) with
      | (s1, none) => s1
      | (s1, some h) =>
        let ok := s1.feedOk r.dir
        let s2 := if ok then s1 else s1.stopTimer h
        { s2 with hoe := { s2.hoe with watches := s2.hoe.watches ++ [{ tag := tag, dir := r.dir, timer := h, paused := !ok }] } }

/-- The stall watch of a tag. -/
def State.watchOf (s : State) (tag : Nat) : Option StallWatch := s.hoe.watches.find? (fun w => w.tag == tag)

/-- The stall watch of a tag is released. -/
def State.dropWatch (s : State) (tag : Nat) : State :=
  let s1 := s.releaseOpt ((s.watchOf tag).map (·.timer))
  { s1 with hoe := { s1.hoe with watches := s1.hoe.watches.filter (fun w => w.tag != tag) } }

/-- Pauses or resumes one watch after a section state change (R62). -/
def State.feedWatch (s : State) (w : StallWatch) : State :=
  let ok := s.feedOk w.dir
  if w.paused == !ok then s
  else
    let s1 := if ok then s.resumeTimer w.timer else s.stopTimer w.timer
    { s1 with hoe := { s1.hoe with watches := s1.hoe.watches.map (fun x =>
      if x.tag == w.tag then { x with paused := !ok } else x) } }

/-- A section's state has changed: the HOE pauses and resumes its watches. -/
def State.feedWatches (s : State) : State := s.hoe.watches.foldl State.feedWatch s

/-- A stall watch expires (R63). -/
def State.watchExpires (s : State) (tag : Nat) : State :=
  let s1 := s.dropWatch tag
  match s1.recOf tag with
  | some r =>
    if r.state == .approaching then s1.raiseOver .trainStalled (Loc.ofRun r.run) (s1.cfg.approachSpan r.dir) else s1
  | none => s1

/-- A record has taken a berth: its watch is released and the stalled condition has ended (R61, R63). -/
def State.watchBerthed (s : State) (tag run : Nat) : State :=
  (s.dropWatch tag).post (.condEnd .trainStalled (Loc.ofRun run))

/-- A tag is gone: its context is closed, its watch released, and the stalled condition has ended (R3, R55, R61, R63).
-/
def State.hoeGone (s : State) (tag run : Nat) : State :=
  let s1 := match s.hctx tag with
    | some x =>
      let s0 := (s.dropRetry tag).closeHctx tag
      if x.reason == some OrphanReason.lost then s0.post (.condEnd .handoverLost (Loc.ofRun x.carried.run)) else s0
    | none => s
  s1.watchBerthed tag run

/-! ## Taking a train (R57 to R60) -/

/-- A HANDOVER is a repeat (R58): a record here carries its run and sequence, or the received history does. -/
def State.isRepeat (s : State) (e : SentEntry) : Bool :=
  s.ttu.table.any (fun r => r.run == e.carried.run && r.recvSeq == some e.seq)
    || (s.hoeDir e.carried.dir).received.any (fun h => h.run == e.carried.run && h.seq == e.seq)

/-- A repeat is answered, and its set flags are asked for the record it finds (R58). -/
def State.answerRepeat (s : State) (sender : Nat) (e : SentEntry) : State :=
  let s1 : State := { s with ttu := { s.ttu with table := s.ttu.table.map (fun r =>
    if r.run == e.carried.run && r.recvSeq == some e.seq then
      { r with consoleHold := r.consoleHold || e.carried.consoleHold, withdraw := r.withdraw || e.carried.withdraw }
    else r) } }
  (s1.post .holdRecompute).send sender (.takeover e.carried.run e.carried.dir e.seq)

/-- An accepted HANDOVER's effects (R60). -/
def State.acceptHandover (s : State) (sender tag : Nat) (e : SentEntry) : State :=
  let c := e.carried
  let s1 := match (s.hoeDir c.dir).expected with
    | some x => if x == e.seq then s else s.raise .sequenceGap (Loc.ofRun c.run)
    | none => s
  let s2 := s1.updHoeDir c.dir (fun h =>
    { h with
      expected := some (wrap8 (e.seq + 1))
      received := joinHistory { run := c.run, seq := e.seq } h.received
      accepted := true })
  (s2.startWatch tag).send sender (.takeover c.run c.dir e.seq)

/-- A HANDOVER taken in REBUILD or RUNNING (R57 to R60), not in CONSOLE role (R47). -/
def State.takeHandover (s : State) (sender : Nat) (e : SentEntry) : State :=
  let c := e.carried
  if !s.speaking || !s.isStation || sender != s.cfg.upstream c.dir || c.run == 0 then s
  else if s.isRepeat e then s.answerRepeat sender e
  else
    match s.createRec (recOfCarried c e.seq) with
    | (s1, .duplicate) =>
      (s1.send sender (.refusal c.run c.dir e.seq true)).raise .runConflict (Loc.ofRun c.run)
    | (s1, .full) => s1.send sender (.refusal c.run c.dir e.seq false)
    | (s1, .created t) => s1.acceptHandover sender t e

/-! ## Rebuild (R64 to R68) -/

/-- The renewal sides of a direction at the entry to REBUILD, and its RENEW_ASKs. At a node in CONSOLE role both sides
are UNKNOWN and nothing is asked, whatever neighbours its image names (R47, R195; log 48). -/
def State.askRenewal (s : State) (d : Dir) : State :=
  let up := if s.isStation then s.cfg.upstream d else 0
  let down := if s.isStation then s.cfg.downstream d else 0
  let s1 := s.updHoeDir d (fun h =>
    { h with
      upSide := if up = 0 then .unknown else .asked
      downSide := if down = 0 then .unknown else .asked
      upReply := []
      downReply := []
      accepted := false })
  let s2 := if up = 0 then s1 else s1.send up (.renewAsk d)
  if down = 0 then s2 else s2.send down (.renewAsk d)

/-- The rebuild timer is asked for; refused, the second status period is taken as its expiry. -/
def State.startRebuildTimer (s : State) : State :=
  match s.requestTimer .rebuild 20 with
  | (s1, some h) => { s1 with hoe := { s1.hoe with rebuildTimer := some h, rebuildFallback := none } }
  | (s1, none) => { s1 with hoe := { s1.hoe with rebuildTimer := none, rebuildFallback := some 2 } }

/-- The HOE's entry to REBUILD (R64). The RENEW_ASKs go UP before DOWN, and in one direction upstream before
downstream: R64 gives no order among them (DESIGN CHOICE, log 84). -/
def State.startRebuild (s : State) : State :=
  (((s.askRenewal .up).askRenewal .down).startRebuildTimer).post .rebuildCheck

/-- Every side of a direction is settled. -/
def HoeDir.settled (h : HoeDir) : Bool := h.upSide != .asked && h.downSide != .asked

/-- Sides still ASKED become UNKNOWN. -/
def HoeDir.giveUp (h : HoeDir) : HoeDir :=
  { h with
    upSide := if h.upSide == .asked then .unknown else h.upSide
    downSide := if h.downSide == .asked then .unknown else h.downSide }

/-- A downstream side that ends UNKNOWN gives a send counter of 0 (R66). -/
def HoeDir.endCounters (h : HoeDir) : HoeDir := if h.downSide == .unknown then { h with sendCtr := some 0 } else h

/-- The send counters of both directions at the end of a rebuild; a node in CONSOLE role keeps none (R47). -/
def Hoe.endCounters (h : Hoe) (station : Bool) : Hoe :=
  if station then { h with up := h.up.endCounters, down := h.down.endCounters } else h

/-- A candidate is inserted among candidates oldest first. Of equal sequences, of two exactly 128 apart and of a ring none
is the oldest by R10: they rank by insertion in the reply's order (DESIGN CHOICE, log 53). -/
def insertBySeq (e : SentEntry) : List SentEntry → List SentEntry
  | [] => [e]
  | x :: xs => if seqNewer e.seq x.seq then e :: x :: xs else x :: insertBySeq e xs

/-- The candidates of a direction, oldest first (R67). -/
def State.candidates (s : State) (d : Dir) : List SentEntry :=
  let h := s.hoeDir d
  if h.upSide == .answered && h.downSide == .answered then
    (h.upReply.filter (fun e =>
      !h.downReply.any (fun r => r.run == e.carried.run) && !s.runCarried e.carried.run)).foldl
        (fun acc e => insertBySeq e acc) []
  else []

/-- A platform is to be filled before another (R67): earliest occupied-since, absent last, then by index. -/
def State.berthBefore (s : State) (p q : Nat) : Bool :=
  match (s.plat p).since, (s.plat q).since with
  | some a, some b => decide (a < b)
  | some _, none => true
  | none, _ => false

/-- A platform is inserted among platforms in that order; those of lower index stand first among equals. -/
def State.insertBerth (s : State) (p : Nat) : List Nat → List Nat
  | [] => [p]
  | q :: qs => if s.berthBefore p q then p :: q :: qs else q :: s.insertBerth p qs

/-- The occupied platforms of a direction that have no occupying record, in the order they are filled. -/
def State.emptyBerths (s : State) (d : Dir) : List Nat :=
  (s.platforms.filter (fun p => s.receives p d && (s.plat p).occupied && (s.plat p).occupant.isNone)).foldl
    (fun acc p => s.insertBerth p acc) []

/-- A candidate for which a record is created joins the received history. -/
def State.joinReceived (s : State) (d : Dir) (e : SentEntry) : State :=
  s.updHoeDir d (fun h => { h with received := joinHistory { run := e.carried.run, seq := e.seq } h.received })

/-- A candidate is placed at a berth: the rebuild row of R5, and at a turnback platform the conversion of R16; a
withdrawn record enters SPARE there. The answer says whether a record was created. -/
def State.placeAtBerth (s : State) (d : Dir) (p : Nat) (c : PlatformCfg) (e : SentEntry) : State × Bool :=
  let r := recOfCarried e.carried e.seq
  let st := if c.turnback && r.withdraw then TrainState.spare else .dwelling
  match s.createRec { r with state := st, platform := some p, aa := (s.plat p).since } with
  | (s1, .created t) =>
    let s2 := (s1.setOccupant p (some t)).joinReceived d e
    (if c.turnback && !r.withdraw then s2.convert p t else s2, true)
  | (s1, _) => (s1, false)

/-- A platform receives the oldest remaining candidate that the TTU takes; answers the candidates left. -/
def State.fillBerth (s : State) (d : Dir) (p : Nat) (c : PlatformCfg) : List SentEntry → State × List SentEntry
  | [] => (s, [])
  | e :: es =>
    match s.placeAtBerth d p c e with
    | (s1, true) => (s1, es)
    | (s1, false) => s1.fillBerth d p c es

/-- The berths of a direction are filled in order; answers the candidates left. -/
def State.fillBerths (s : State) (d : Dir) : List Nat → List SentEntry → State × List SentEntry
  | [], es => (s, es)
  | p :: ps, es =>
    match s.pcfg p with
    | some c =>
      match s.fillBerth d p c es with
      | (s1, es1) => s1.fillBerths d ps es1
    | none => s.fillBerths d ps es

/-- A candidate not at a berth becomes an APPROACHING record with its stall watch. -/
def State.placeApproaching (s : State) (d : Dir) (e : SentEntry) : State :=
  match s.createRec (recOfCarried e.carried e.seq) with
  | (s1, .created t) => (s1.joinReceived d e).startWatch t
  | (s1, _) => s1

/-- Platforms left OCCUPIED with no record are unknown arrivals (R67, R68). -/
def State.leftBerths (s : State) (d : Dir) : State :=
  (s.emptyBerths d).foldl (fun s p =>
    match s.pcfg p with
    | some c => s.unknownArrival p c (s.plat p).since
    | none => s) s

/-- The candidates of a direction are placed (R67, R68). -/
def State.placeDirection (s : State) (d : Dir) : State :=
  match s.fillBerths d (s.emptyBerths d) (s.candidates d) with
  | (s1, rest) => (rest.foldl (fun s e => s.placeApproaching d e) s1).leftBerths d

/-- The computations of records placed in DWELLING begin (R23, R195), by platform index, lowest first: R67 gives no order
(DESIGN CHOICE, log 67). -/
def State.computeRebuilt (s : State) : State :=
  s.posts (s.platforms.filterMap (fun p =>
    match (s.plat p).occupant.bind s.recOf with
    | some r => if r.state == .dwelling && (s.ctx p).tag.isNone then some (.compute p r.tag) else none
    | none => none))

/-- The entry to RUNNING (R195). -/
def State.enterRunning (s : State) : State :=
  ({ s with cfl := { s.cfl with start := .running } } : State).computeRebuilt

/-- The rebuild is complete (R64): counters, placement (log 18), RUNNING. -/
def State.finishRebuild (s : State) : State :=
  let s1 := s.releaseOpt s.hoe.rebuildTimer
  let s2 : State := { s1 with hoe := { s1.hoe.endCounters s1.isStation with
    rebuildTimer := none
    rebuildFallback := none } }
  ((s2.placeDirection .up).placeDirection .down).enterRunning

/-- Is the rebuild complete (R64). -/
def State.checkRebuild (s : State) : State :=
  if s.cfl.start == .rebuild && s.hoe.up.settled && s.hoe.down.settled then s.finishRebuild else s

/-- The rebuild timer's expiry, or its fallback (R64). -/
def State.rebuildExpires (s : State) : State :=
  ({ s with hoe := { s.hoe with up := s.hoe.up.giveUp, down := s.hoe.down.giveUp } } : State).checkRebuild

/-- A RENEW_ASK is answered in REBUILD and RUNNING (R65). An asker that is both the upstream and the downstream node of
the direction is sent both replies, SENT first: R65 gives one reply by the asker's row and does not say which (DESIGN
CHOICE, log 49). -/
def State.answerRenewal (s : State) (sender : Nat) (d : Dir) : State :=
  let h := s.hoeDir d
  let s1 := if sender == s.cfg.downstream d then s.send sender (.renewReply d h.lastTaken (.sent h.sent)) else s
  if sender == s.cfg.upstream d then s1.send sender (.renewReply d h.expected (.received h.received)) else s1

/-- A RENEW_REPLY is taken in REBUILD (R66). -/
def State.takeRenewal (s : State) (sender : Nat) (d : Dir) (counter : Option Nat) (content : RenewContent) : State :=
  let h := s.hoeDir d
  match content with
  | .sent es =>
    if sender == s.cfg.upstream d && h.upSide == .asked then
      (s.updHoeDir d (fun h =>
        { h with
          upSide := .answered
          upReply := es
          expected := match counter with
            | some n => if h.accepted then h.expected else some (wrap8 (n + 1))
            | none => h.expected })).post .rebuildCheck
    else s
  | .received es =>
    if sender == s.cfg.downstream d && h.downSide == .asked then
      (s.updHoeDir d (fun h =>
        { h with downSide := .answered, downReply := es, sendCtr := some (counter.getD 0) })).post .rebuildCheck
    else s

/-! ## STATUS parts (R47) -/

/-- The HOE's and the RGE's part of a STATUS for a direction. -/
def State.statusDir (s : State) (d : Dir) : StatusDir :=
  { lastSend := (s.hoeDir d).lastTaken, lastExpected := (s.hoeDir d).expected, prediction := s.predictionFor d }

end Sys2Proof.Machine
end

