-- ==== Sys2Proof/Machine/Incidents.lean ====
section
/-! DEFINITION. Incident Unit (06): raises and merges, condition ends, clearing, escalation, admission and eviction,
peers, effects, the operating level, broadcast. -/

namespace Sys2Proof.Machine

open Sys2Proof

/-! ## Covers and reach (R110) -/

/-- A platform's chainage point as a span. -/
def pointSpan (c : PlatformCfg) : Span := { fromEnd := c.point, toEnd := c.point }

/-- The smallest span that holds every platform's chainage point; none at a node with no platforms. -/
def pointsSpan (l : List PlatformCfg) : Option Span :=
  l.foldl (fun acc c =>
    match acc with
    | none => some (pointSpan c)
    | some x => some { fromEnd := min x.fromEnd c.point, toEnd := max x.toEnd c.point }) none

/-- The zone of an intrusion point. -/
def State.zoneOf (s : State) (n : Nat) : Option Span :=
  match s.pointUse n with
  | .intrusion z => some z
  | .unassigned | .alarm _ | .doorFault _ | .breaker _ => none

/-- The onward span of the lowest-indexed platform of a direction, or that direction's approach span. -/
def State.beyondSpan (s : State) (d : Dir) : Option Span :=
  match s.cfg.platforms.find? (fun c => c.dir == d) with
  | some c => some c.onwardSpan
  | none => s.cfg.approachSpan d

/-- The cover of a run, by the record that carries it (Table 6-3). Several records may carry run 000: the one that
stands first in the train table is taken (DESIGN CHOICE, log 34). -/
def State.runCover (s : State) (run : Nat) : Option Span :=
  match s.recOfRun run with
  | none => none
  | some r =>
    match r.state with
    | .approaching => s.cfg.approachSpan r.dir
    | .handing | .orphaned => s.beyondSpan r.dir
    | .dwelling | .asking | .granted | .authorized | .held | .spare => (r.platform.bind s.pcfg).map pointSpan

/-- The section record's span of an id. -/
def State.sectionSpan (s : State) (id : Nat) : Option Span := ((s.secIndex id).bind s.scfg).map (·.span)

/-- The cover derived from a location, by the first row of Table 6-3 that applies; a part that names nothing of this
node counts as absent, and so does a field point that is no intrusion zone, which no row names (DESIGN CHOICE, log 20).
-/
def State.coverOf (s : State) (l : Loc) : Option Span :=
  match l.point.bind s.zoneOf, l.sec.bind s.sectionSpan, l.platform.bind s.pcfg, l.run with
  | some z, _, _, _ => some z
  | none, some x, _, _ => some x
  | none, none, some c, _ => some (pointSpan c)
  | none, none, none, some r => s.runCover r
  | none, none, none, none => pointsSpan s.cfg.platforms

/-- A cover overlaps this node's reach (R110). -/
def State.reaches (s : State) (cover : Option Span) : Bool :=
  s.isStation &&
    ([s.cfg.spanUp, s.cfg.spanDown].any (fun x => match x with | some y => coverOverlaps cover y | none => false)
      || s.cfg.platforms.any (fun c => coverHas cover c.point || coverOverlaps cover c.onwardSpan))

/-! ## The table -/

/-- Greatest number of incident entries. -/
abbrev incidentRoom : Nat := 32

/-- Greatest number of own entries not CLEARED. -/
abbrev ownRoom : Nat := 24

/-- The entry of an id. -/
def State.inc (s : State) (id : IncId) : Option Incident := s.inu.table.find? (fun e => e.id == id)

/-- Changes the entry of an id. -/
def State.updInc (s : State) (id : IncId) (f : Incident → Incident) : State :=
  { s with inu := { s.inu with table := s.inu.table.map (fun e => if e.id == id then f e else e) } }

/-- The own entry not CLEARED with a kind and location (R113, R114). -/
def State.ownOf (s : State) (k : IncKind) (l : Loc) : Option Incident :=
  s.inu.table.find? (fun e => e.own && e.state != .cleared && e.kind == k && e.loc == l)

/-- An own entry has changed: its INCIDENT is due at the end of the event (R128; log 10). -/
def State.markDirty (s : State) (id : IncId) : State :=
  if s.inu.dirty.contains id then s else { s with inu := { s.inu with dirty := s.inu.dirty ++ [id] } }

/-- The own entry's INCIDENT. -/
def Incident.body (e : Incident) : Body :=
  .incident { id := e.id, kind := e.kind, severity := e.severity, state := e.state, loc := e.loc, effects := e.effects,
              cover := e.cover, raised := e.raised, ackBy := e.ackBy }

/-- Hands an own entry's INCIDENT to the LBC: in REBUILD and RUNNING it is sent and sets the refresh due (R128). -/
def State.broadcastInc (s : State) (id : IncId) : State :=
  match s.inc id with
  | some e =>
    if e.own && s.speaking then
      (s.send 0 e.body).updInc id (fun x =>
        { x with refreshDue := if x.state == .cleared then none else some (s.runTime + 300) })
    else s
  | none => s

/-- The INCIDENTs due at the end of an event, one for each entry. -/
def State.flushIncidents (s : State) : State :=
  let ids := s.inu.dirty
  ids.foldl State.broadcastInc { s with inu := { s.inu with dirty := [] } }

/-! ## Effects (R125, R127, R7) -/

/-- The set of acting entries, or a cover or effect in it, may have changed (R125, R126). -/
def State.actingMoved (s : State) : State := (s.post .actingChanged).post .levelCheck

/-- The zone set of an incident's announcements: platforms within the cover, and the concourse (R127). -/
def State.incZones (s : State) (cover : Option Span) : BitVec 5 :=
  let within := s.platforms.filter (fun p => match s.pcfg p with | some c => coverHas cover c.point | none => false)
  let ps := if within.isEmpty then s.platforms else within
  BitVec.ofNat 5 ((ps.map (fun p => 2 ^ p)).sum + 16)

/-- An incident's slots: run, platform, section, origin node. -/
def Incident.slots (e : Incident) : List Nat :=
  [e.loc.run.getD 0, e.loc.platform.getD 0, e.loc.sec.getD 0, e.id.node]

/-- The announcement of an entry at its severity, when it has ANNOUNCE effect (R127). -/
def State.announceInc (s : State) (e : Incident) : State :=
  if e.effects.announce then
    let c := s.cfg.announce
    s.post (.announce { template := c.srcKind.getD (e.kind.code - 1) 0, priority := e.severity, zones := s.incZones e.cover,
                        slots := e.slots, repeatCount := c.repeatCount, interval := c.repeatInterval,
                        source := .incident (some e.id), flag := none })
  else s

/-- The service-resuming announcement of an entry with HOLD effect that becomes CLEARED (R127). R127 states no repeats
for it: it has the configured incident repeats (DESIGN CHOICE, log 51). -/
def State.announceResume (s : State) (e : Incident) : State :=
  if e.effects.hold then
    let c := s.cfg.announce
    s.post (.announce { template := c.srcResume, priority := 2, zones := s.incZones e.cover, slots := e.slots,
                        repeatCount := c.repeatCount, interval := c.repeatInterval, source := .incident none, flag := none })
  else s

/-- The reference of the record that carries the location's run becomes the entry's id (R125). -/
def State.setRef (s : State) (e : Incident) : State :=
  match e.loc.run with
  | some run =>
    if run = 0 then s
    else { s with ttu := { s.ttu with table := s.ttu.table.map (fun r =>
      if r.run == run then { r with incRef := some e.id } else r) } }
  | none => s

/-- The reference of that record becomes absent if it is still the entry's id. -/
def State.clearRef (s : State) (e : Incident) : State :=
  match e.loc.run with
  | some run =>
    if run = 0 then s
    else { s with ttu := { s.ttu with table := s.ttu.table.map (fun r =>
      if r.run == run && r.incRef == some e.id then { r with incRef := none } else r) } }
  | none => s

/-! ## The operating level (R126) -/

/-- An entry bears on the level of a station node: it acts, and its cover overlaps an approach span or contains a
platform's point. None bears on a console's, which is its overflow floor (R126). -/
def State.bearsOnLevel (s : State) (e : Incident) : Bool :=
  s.isStation && e.state.acts
    && ([s.cfg.spanUp, s.cfg.spanDown].any (fun x => match x with | some y => coverOverlaps e.cover y | none => false)
      || s.cfg.platforms.any (fun c => coverHas e.cover c.point))

/-- The operating level's value (R126). -/
def State.levelNow (s : State) : Nat :=
  ((s.inu.table.filter s.bearsOnLevel).map (·.severity)).foldl max s.inu.floor

/-- The ALERT pin at a level (Table 6-6). -/
def State.alertAt (s : State) (level : Nat) : Bool :=
  match s.cfg.incidents with
  | some c => decide (c.alertLevel ≤ level)
  | none => false

/-- The level is recomputed; at a change the RGE and the ANU are told, and the ALERT pin follows. -/
def State.checkLevel (s : State) : State :=
  let l := s.levelNow
  let s1 : State := { s with inu := { s.inu with level := l }, pins := { s.pins with alert := s.alertAt l } }
  if l == s.inu.level then s1 else (s1.post .holdRecompute).post .select

/-! ## Escalation (R119, R120) -/

/-- The escalation period of a severity from 2 to 6; none when the Incidents group is not configured (log 13). -/
def State.period (s : State) (sev : Nat) : Option Nat :=
  match s.cfg.incidents with
  | some c => c.periods[sev - 2]?
  | none => none

/-- The escalation timer of an own entry is stopped and released. -/
def State.dropEscalation (s : State) (id : IncId) : State :=
  (s.releaseOpt ((s.inc id).bind (·.timer))).updInc id (fun e => { e with timer := none })

/-- Escalation starts for an own entry at its severity (R119). -/
def State.startEscalation (s : State) (id : IncId) : State :=
  match s.inc id with
  | none => s
  | some e =>
    if e.severity ≤ 5 then
      match s.period (e.severity + 1) with
      | none => s
      | some n =>
        match s.requestTimer (.escalation id.serial) n with
        | (s1, h) => s1.updInc id (fun e => { e with timer := h })
    else s

/-- An escalation timer expires (R120). -/
def State.escalates (s : State) (id : IncId) : State :=
  let s1 := (s.dropEscalation id).updInc id (fun e => { e with severity := e.severity + 1 })
  let s2 := ((s1.startEscalation id).markDirty id).post .levelCheck
  match s2.inc id with
  | some e => if e.state == .opened then s2.announceInc e else s2
  | none => s2

/-! ## Clearing and removal (R118, R121) -/

/-- An entry, own or peer, becomes CLEARED. -/
def State.clearInc (s : State) (id : IncId) : State :=
  match s.inc id with
  | none => s
  | some e =>
    let s1 := (s.dropEscalation id).updInc id (fun x =>
      { x with state := .cleared, clearedAt := some s.runTime, refreshDue := none })
    let s2 := (((s1.actingMoved).post (.cancelSource (.incident (some id)) none)).announceResume e).clearRef e
    if e.own then s2.markDirty id else s2

/-- An entry leaves the table. -/
def State.removeInc (s : State) (id : IncId) : State :=
  { s with inu := { s.inu with table := s.inu.table.filter (fun e => e.id != id), dirty := s.inu.dirty.erase id } }

/-- An entry is evicted (R121, R125, R127); an INCIDENT still due for it is sent first (log 10). -/
def State.evict (s : State) (e : Incident) : State :=
  let s1 := if s.inu.dirty.contains e.id then s.broadcastInc e.id else s
  (((s1.dropEscalation e.id).removeInc e.id).actingMoved.post (.cancelSource (.incident (some e.id)) none)).clearRef e

/-- The first entry that is least by a measure (log 11). -/
def leastBy (f : Incident → Nat) (l : List Incident) : Option Incident :=
  l.foldl (fun best e =>
    match best with
    | none => some e
    | some b => if f e < f b then some e else some b) none

/-- The oldest CLEARED entry. -/
def State.oldestCleared (s : State) : Option Incident :=
  leastBy (fun e => e.clearedAt.getD 0) (s.inu.table.filter (fun e => e.state == .cleared))

/-- The peer entry of lowest severity, the earliest admitted among equals. -/
def State.lowestPeer (s : State) (below : Nat) : Option Incident :=
  let peers := s.inu.table.filter (fun e => !e.own && decide (e.severity < below))
  match leastBy (·.severity) peers with
  | some e => leastBy (·.admittedAt) (peers.filter (fun x => x.severity == e.severity))
  | none => none

/-- Makes room for one entry: a free place, or an eviction; `below` bounds the severity of a peer that may go. -/
def State.makeRoom (s : State) (below : Nat) : Option State :=
  if s.inu.table.length < incidentRoom then some s
  else
    match s.oldestCleared with
    | some e => some (s.evict e)
    | none => (s.lowestPeer below).map s.evict

/-! ## Raises (R109, R112, R113, R117) -/

/-- The next serial after one, wrapping from 4,095 to 1. -/
def nextSerial (n : Nat) : Nat := if n < 4095 then n + 1 else 1

/-- The next serial that no own entry carries (R109). -/
def freshSerial (used : List Nat) : Nat → Nat → Nat
  | 0, n => n
  | fuel + 1, n => if used.contains n then freshSerial used fuel (nextSerial n) else n

/-- Effects of an entry entering OPEN (R125 to R127). -/
def State.entersOpen (s : State) (e : Incident) : State := ((s.actingMoved).announceInc e).setRef e

/-- The new entry joins the table with escalation and effects; the condition of an at-once kind ends in the same event.
-/
def State.admitOwn (s : State) (e : Incident) : State :=
  let s1 := ({ s with inu := { s.inu with table := s.inu.table ++ [e] } } : State).startEscalation e.id
  let s2 := s1.markDirty e.id
  if e.kind.atOnce then (s2.setRef e).actingMoved else s2.entersOpen e

/-- A raise with no matching entry creates an own incident, or is dropped at the own limit with the floor raised (R112,
R121). The serial counter steps past the serial of an own CLEARED entry that this incident evicts, which is still in the
table as the id is given (DESIGN CHOICE, log 70); and the refresh due is absent until the first INCIDENT is sent, through
LISTEN too (DESIGN CHOICE, log 69). -/
def State.createInc (s : State) (r : Raise) : State × Bool :=
  let used := (s.inu.table.filter (·.own)).map (fun e => e.id.serial)
  let serial := freshSerial used 33 s.inu.serial
  let s1 : State := { s with inu := { s.inu with serial := freshSerial used 33 (nextSerial serial) } }
  let sev := r.severity.getD r.kind.severity
  if ownRoom ≤ (s.inu.table.filter (fun e => e.own && e.state != .cleared)).length then
    (({ s1 with inu := { s1.inu with floor := max s1.inu.floor sev } } : State).post .levelCheck, false)
  else
    let e : Incident :=
      { id := { node := s.cfg.node, serial := serial }, kind := r.kind, severity := sev,
        state := if r.kind.atOnce then .standing else .opened, loc := r.loc, cover := r.cover.getD (s.coverOf r.loc),
        effects := r.effects.getD r.kind.effects, raised := s.now, ackBy := none, own := true, admittedAt := s.runTime,
        clearedAt := none, timer := none, refreshDue := none, lastHeard := none }
    match s1.makeRoom 8 with
    | some s2 => (s2.admitOwn e, true)
    | none => (s1, false)

/-- The entry after a merge's changes of severity, and for OPERATOR of cover and effects (R113, R117). -/
def Incident.merge (e : Incident) (r : Raise) : Incident :=
  let x := { e with severity := max e.severity (r.severity.getD r.kind.severity) }
  if e.kind == .operator then
    { x with
      cover := r.cover.getD e.cover
      effects := e.effects.union (r.effects.getD Effects.none) }
  else x

/-- Escalation after a merge: started again when the severity has risen, started when none runs at a return to OPEN. -/
def State.mergeEscalation (s : State) (e x : Incident) : State :=
  if e.severity < x.severity && e.state != .acked then (s.dropEscalation e.id).startEscalation e.id
  else if e.state == .standing && e.timer.isNone then s.startEscalation e.id
  else s

/-- A raise merges into an own entry (R113). A repeat of an at-once kind into a STANDING entry, which R113 calls no change,
still sets the record's reference as its passing through OPEN does (DESIGN CHOICE, log 68). A request made again for a
merge that raises the severity and replaces the cover has the zones of the new cover (DESIGN CHOICE, log 71). -/
def State.mergeInc (s : State) (e : Incident) (r : Raise) : State :=
  let reopens := e.state == .standing && !e.kind.atOnce
  let x := { e.merge r with state := if reopens then IncState.opened else e.state }
  let s1 := (s.updInc e.id (fun _ => x)).mergeEscalation e x
  let s2 := if x == e then s1 else (s1.markDirty e.id).actingMoved
  if e.state == .standing then
    if reopens then s2.entersOpen x else s2.setRef x
  else if e.severity < x.severity then s2.announceInc x
  else s2

/-- A raise reaches the INU, from the entry to LISTEN onward: the answer says whether it is kept (R112, R113). -/
def State.takeRaise (s : State) (r : Raise) : State × Bool :=
  if s.listening then
    match s.ownOf r.kind r.loc with
    | some e => (s.mergeInc e r, true)
    | none => s.createInc r
  else (s, false)

/-- A condition end (R114). -/
def State.takeEnd (s : State) (k : IncKind) (l : Loc) : State :=
  match s.ownOf k l with
  | none => s
  | some e =>
    match e.state with
    | .opened => ((s.updInc e.id (fun x => { x with state := .standing })).markDirty e.id).actingMoved
    | .acked => s.clearInc e.id
    | .standing | .cleared => s

/-- A field point's report (R111). -/
def State.pointReport (s : State) (n v : Nat) : State :=
  let report := fun (k : IncKind) (l : Loc) => if v = 0 then s.post (.condEnd k l) else s.raise k l
  match s.pointUse n with
  | .alarm p => report .passengerAlarm (Loc.ofPlatformPoint p n)
  | .doorFault p => report .doorFault (Loc.ofPlatformPoint p n)
  | .intrusion _ => report .trackIntrusion (Loc.ofPoint n)
  | .breaker _ | .unassigned => s

/-- The active points of the field image at the entry to LISTEN (R111). R111 and R194 give no order among several:
they are taken from point 0 up to point 63, which decides their serials and which find the table full (DESIGN CHOICE,
log 80). -/
def State.firstPointReports (s : State) : State :=
  (List.range 64).foldl (fun s n =>
    let v := s.imagePoint n
    match v.value with
    | some x => if v.stale || x = 0 then s else s.pointReport n x
    | none => s) s

/-! ## Directives (R115 to R117, R122) -/

/-- ACK_INCIDENT (R115). -/
def State.ackDirective (s : State) (sender : Nat) (id : IncId) : State × AnswerResult :=
  if id.node != s.cfg.node then (s, .refused)
  else
    match (s.inc id).filter (·.own) with
    | none => (s, .unknown)
    | some e =>
      let s1 := s.updInc id (fun x => { x with ackBy := some sender })
      match e.state with
      | .opened =>
        ((((s1.dropEscalation id).updInc id (fun x => { x with state := .acked })).markDirty id).actingMoved, .done)
      | .standing => (s1.clearInc id, .done)
      | .acked | .cleared => (s, .done)

/-- CLEAR_INCIDENT (R116). -/
def State.clearDirective (s : State) (id : IncId) : State × AnswerResult :=
  if id.node != s.cfg.node then (s, .refused)
  else
    match (s.inc id).filter (·.own) with
    | none => (s, .unknown)
    | some e => if e.state == .cleared then (s, .done) else (s.clearInc id, .done)

/-- DECLARE_INCIDENT (R117), clamped by the DCK. Table 6-1 allows platforms 0 to 3 and no rule refuses a location that
names another: it is stored and sent as given (DESIGN CHOICE, log 52). -/
def State.declareDirective (s : State) (d : DeclareArgs) : State × AnswerResult :=
  let r : Raise :=
    { kind := .operator, loc := d.loc, cover := d.cover.map some, severity := some d.severity, effects := some d.effects }
  match s.takeRaise r with
  | (s1, true) => (s1, .done)
  | (s1, false) => (s1, .refused)

/-- CLEAR_OVERFLOW (R122). -/
def State.overflowDirective (s : State) : State × AnswerResult :=
  (({ s with inu := { s.inu with floor := 0 } } : State).post .levelCheck, .done)

/-! ## Peers (R123, R124) -/

/-- The entry an INCIDENT admits. -/
def peerEntry (now : Nat) (b : IncidentBody) : Incident :=
  { id := b.id, kind := b.kind, severity := b.severity, state := b.state, loc := b.loc, cover := b.cover,
    effects := b.effects, raised := b.raised, ackBy := b.ackBy, own := false, admittedAt := now, clearedAt := none,
    timer := none, refreshDue := none, lastHeard := some now }

/-- A candidate is admitted, or dropped and counted (R123). -/
def State.admitPeer (s : State) (b : IncidentBody) : State :=
  match s.makeRoom b.severity with
  | none => s.stepDrops
  | some s1 =>
    let e := peerEntry s.runTime b
    let s2 : State := { s1 with inu := { s1.inu with table := s1.inu.table ++ [e] } }
    let s3 := (s2.setRef e).actingMoved
    if e.state == .opened then s3.announceInc e else s3

/-- An update from the origin (R124). -/
def State.updatePeer (s : State) (e : Incident) (b : IncidentBody) : State :=
  if e.state == .cleared then s
  else
    let x := { peerEntry s.runTime b with admittedAt := e.admittedAt }
    if b.state == .cleared then (s.updInc e.id (fun _ => { x with state := e.state })).clearInc e.id
    else
      let s1 := (s.updInc e.id (fun _ => x)).actingMoved
      if e.state == .standing && b.state == .opened then (s1.announceInc x).setRef x
      else if b.state.acts && decide (e.severity < x.severity) then s1.announceInc x
      else s1

/-- An INCIDENT reaches the INU, from the entry to LISTEN onward. -/
def State.takeIncident (s : State) (b : IncidentBody) : State :=
  if b.id.node == s.cfg.node then s
  else
    match s.inc b.id with
    | some e => s.updatePeer e b
    | none => if b.state != .cleared && s.reaches b.cover then s.admitPeer b else s

/-! ## Waits (R118, R124, R128) -/

/-- A CLEARED entry's linger has ended. -/
def State.lingerEnds (s : State) (id : IncId) : State :=
  match s.inc id with
  | some e =>
    match e.clearedAt with
    | some t => if e.state == .cleared && s.reached (t + 600) then s.removeInc id else s
    | none => s
  | none => s

/-- A peer entry unheard for 900 ds becomes CLEARED. -/
def State.peerAges (s : State) (id : IncId) : State :=
  match s.inc id with
  | some e =>
    match e.lastHeard with
    | some t => if !e.own && e.state != .cleared && s.reached (t + 900) then s.clearInc id else s
    | none => s
  | none => s

/-- An own entry's refresh is due. -/
def State.refreshInc (s : State) (id : IncId) : State :=
  match s.inc id with
  | some e =>
    if e.own && e.state != .cleared && s.speaking && s.reachedOpt e.refreshDue then s.markDirty id else s
  | none => s

/-- Every own entry is sent once at the entry to REBUILD (R128). R128 and R195 give no order among them: they are
handed in table order, in which they joined, and those that find the ALERT queue full are dropped (DESIGN CHOICE, log
10). -/
def State.sendAllOwn (s : State) : State :=
  (s.inu.table.filter (·.own)).foldl (fun s e => s.markDirty e.id) s

end Sys2Proof.Machine
end

