-- ==== Sys2Proof/Machine/Receive.lean ====
section
/-! DEFINITION. What the LBC receives (09): the relevance filter, STATUS and presence, STATUS formed, plan transfers;
VIEWs of a console node. -/

namespace Sys2Proof.Machine

open Sys2Proof

/-! ## The relevance filter (R167 to R169) -/

/-- The LBC receives (R161). -/
def State.receiving (s : State) : Bool := s.listening

/-- The filter admits a telegram (R168). -/
def State.admits (s : State) (t : Telegram) : Bool :=
  if !s.isStation then true
  else if t.target == s.cfg.node then true
  else if t.target == 0 then
    s.watchedNodes.contains t.sender ||
      match t.body with
      | .incident b => s.reaches b.cover || (s.inc b.id).isSome
      | _ => false
  else false

/-- Places of the receive queue (R169). -/
abbrev rxRoom : Nat := 24

/-- A telegram as it joins the receive queue: with its bytes, and the running and service time of its reception (R158,
R168, R188). -/
def State.received (s : State) (t : Telegram) (bs : Bytes) : Received :=
  { tg := t, bytes := bs, time := s.runTime, stamp := s.tiu.clock }

/-- A telegram that passes R167 and the filter joins the receive queue, or is lost and counted. -/
def State.joinRx (s : State) (t : Telegram) (bs : Bytes) : State :=
  if s.admits t then
    if s.lbc.rx.length < rxRoom then { s with lbc := { s.lbc with rx := s.lbc.rx ++ [s.received t bs] } }
    else s.stepOverruns
  else s

/-- Bytes received whole from the line at a moment (R167, R200). -/
def State.receive (s : State) (m : Nat) (bs : Bytes) : State :=
  let s1 := s.lineBit m
  if s1.receiving then
    match parseTelegram bs with
    | some t => if t.sender == s1.cfg.node then s1.stepDiscards else s1.joinRx t bs
    | none => s1.stepDiscards
  else s1

/-- Bit times of quiet after which bytes that stopped short are a fragment (R200). -/
abbrev fragmentQuiet : Nat := 12

/-- The line may have been quiet for 12 bit times at a moment: the last bit the node knows of lies so far back (R200). -/
def State.fragmentOver (s : State) (m : Nat) : Bool := decide (fragmentQuiet ≤ bitTimes s.lbc.lastBit m)

/-- A fragment on the line (R200): it is discarded as malformed. It is formed 12 bit times, of two cycles each, after its
last bit, so the quiet of R163 goes on from that bit (log 6). -/
def State.receiveFragment (s : State) (m : Nat) : State :=
  let s1 := s.lineBit (m - 2 * fragmentQuiet)
  if s1.receiving then s1.stepDiscards else s1

/-- Bytes that stop short of the length their length byte gives (R200). No whole byte at all is a fragment too, and is
counted: R200 speaks of the bytes received and not of a line that carried bits and no byte (DESIGN CHOICE, log 76). -/
def isFragment (bs : Bytes) : Bool :=
  match bs with
  | _ :: _ :: _ :: _ :: len :: _ => decide (bs.length < 7 + len.toNat)
  | _ => true

/-- Bytes that end where a telegram ends (R200): 7 + L of them. -/
def isWhole (bs : Bytes) : Bool :=
  match bs with
  | _ :: _ :: _ :: _ :: len :: _ => bs.length == 7 + len.toNat
  | _ => false

/-! ## VIEW (R188) -/

/-- An admitted telegram of a forwarded kind goes to the workstation whole, as it came (R188). -/
def State.forward (s : State) (r : Received) : State :=
  if s.isStation then s
  else
    match r.tg.body with
    | .incident _ | .status _ | .handover _ | .answer _ => s.view (.telegram r.bytes)
    | _ => s

/-- Takes a telegram of a kind from the head of the receive queue, with its reception: it is forwarded at a console
node, and its blocks take it when it is for this node (R168). -/
def State.onReceived (s : State) (want : Body → Bool) (f : Received → State → State) : State :=
  s.takeTelegram want (fun r s =>
    let s1 := s.forward r
    if s1.forMe r.tg then f r s1 else s1)

/-- Takes a telegram of a kind from the head of the receive queue. -/
def State.onTelegram (s : State) (want : Body → Bool) (f : Telegram → State → State) : State :=
  s.onReceived want (fun r s => f r.tg s)

/-! ## Presence (R170) -/

/-- A watched node becomes PRESENT: stand-in ends in its sections (R107), by section record index, lowest first; R107
gives no order among several sections of one owner (DESIGN CHOICE, log 50). -/
def State.becomePresent (s : State) (n : Nat) : State :=
  (s.standInOf n).foldl State.endStandIn (s.updWatch n (fun w => { w with present := true }))

/-- A watched node becomes ABSENT: its mirrors are stale, and stand-in begins in its sections (R88, R105), by section
record index, lowest first; R105 gives no order among several sections of one owner (DESIGN CHOICE, log 50). -/
def State.becomeAbsent (s : State) (n : Nat) : State :=
  let s1 := (s.updWatch n (fun w => { w with present := false })).staleMirrors n
  (s1.standInOf n).foldl State.beginStandIn s1

/-- A PRESENT watched node unheard for 50 ds (R170). -/
def State.ageWatch (s : State) (n : Nat) : State :=
  match s.watch n with
  | some w =>
    match w.lastHeard with
    | some t => if w.present && s.reached (t + 50) then s.becomeAbsent n else s
    | none => s
  | none => s

/-- A STATUS from a watched node, received at a running time, sets its last-heard time, its latest STATUS and its
presence (R168, R170; log 46). -/
def State.hearStatus (s : State) (n time : Nat) (b : StatusBody) : State :=
  match s.watch n with
  | none => s
  | some w =>
    let s1 := s.updWatch n (fun w => { w with lastHeard := some time, latest := some (time, b) })
    if w.present then s1 else s1.becomePresent n

/-- A STATUS is handed to its consumers (R168): presence, then TIU, HOE and SCM; the RGE and the ANU read the latest
STATUS where it is kept. R168 names these blocks and gives them no order (DESIGN CHOICE, log 85). -/
def State.takeStatus (s : State) (r : Received) (b : StatusBody) : State :=
  let s1 := s.hearStatus r.tg.sender r.time b
  let s2 := (s1.keepOffset r.tg.sender b r.stamp).setClockFrom r.tg.sender b
  (s2.hoeStatus r.tg.sender).updateMirrors r.tg.sender b

/-! ## STATUS formed (R171) -/

/-- A direction's part at a node in CONSOLE role. -/
def StatusDir.none : StatusDir := { lastSend := .none, lastExpected := .none, prediction := .none }

/-- The STATUS of this node from the blocks' parts. -/
def State.statusBody (s : State) : StatusBody :=
  { clock := s.now
    overrun := s.tiu.overrun
    console := !s.isStation
    level := s.inu.level
    up := if s.isStation then s.statusDir .up else StatusDir.none
    down := if s.isStation then s.statusDir .down else StatusDir.none
    plan := s.lbc.planResult
    drops := s.lbc.drops
    discards := s.lbc.discards
    overruns := s.lbc.overruns
    annDropped := s.anu.dropped
    muted := s.anu.muted
    sections := s.sectionEntries }

/-- STATUS at a status period: in MUTE only at every tenth period, as the probe (R166, R171). -/
def State.formStatus (s : State) : State :=
  if s.speaking then
    let tg : Telegram := { sender := s.cfg.node, target := 0, body := .status s.statusBody }
    if s.lbc.mute then
      let n := s.lbc.mutePeriods + 1
      if n < 10 then { s with lbc := { s.lbc with mutePeriods := n } }
      else ({ s with lbc := { s.lbc with mutePeriods := 0 } } : State).hand tg .none true
    else s.hand tg
  else s

/-! ## Plan transfers (R173 to R175) -/

/-- The authority table's entry of a console node. -/
def State.consoleIndex (s : State) (n : Nat) : Option Nat := s.cfg.consoles.findIdx? (fun c => c.node == n)

/-- The ANSWER to a plan telegram (log 42). -/
def State.answerPlan (s : State) (target kind planId : Nat) (r : AnswerResult) : State :=
  s.send target (.answer { code := Config.planAnswerCode kind planId % 256,
                           serial := Config.planAnswerSerial kind planId % 256, result := r, points := none })

/-- The plan timer of the transfer is stopped and released. -/
def State.dropPlanTimer (s : State) : State := s.releaseOpt (s.lbc.transfer.bind (·.timer))

/-- The transfer ends with a result: timer released, staging list emptied. -/
def State.closeTransfer (s : State) (r : PlanResult) : State := s.dropPlanTimer.endTransfer r

/-- The node has a turnback platform. -/
def State.hasTurnback (s : State) : Bool := s.cfg.platforms.any (·.turnback)

/-- The plan timer's load. -/
abbrev planTimeout : Nat := 50

/-- A transfer opens (R173); with no timer to be had it is aborted at once. -/
def State.openTransfer (s : State) (sender planId blocks remainder : Nat) : State :=
  let s1 := s.dropPlanTimer.clearStaging
  match s1.requestTimer .plan planTimeout with
  | (s2, some h) =>
    { s2 with lbc := { s2.lbc with
        transfer := some { console := sender, planId := planId, blocks := blocks, remainder := remainder, nextIndex := 0,
                           received := 0, timer := some h }
        planResult := .inProgress } }
  | (s2, none) => s2.endTransfer .timedOut

/-- PLAN_OPEN (R173). -/
def State.takePlanOpen (s : State) (sender planId blocks remainder : Nat) : State :=
  let answer := fun (s : State) (r : AnswerResult) => s.answerPlan sender 14 planId r
  if !s.isRunning || !s.isStation then s
  else if (s.consoleIndex sender).isNone then answer s .denied
  else if !s.hasTurnback || blocks < 1 || 64 < blocks || 7 < remainder then answer s .refused
  else if s.lbc.planResult == .inProgress && s.lbc.transfer.any (fun x => x.console != sender) then answer s .busy
  else answer (s.openTransfer sender planId blocks remainder) .done

/-- The transfer a plan telegram belongs to (R174). -/
def State.planOf (s : State) (sender planId : Nat) : Option Transfer :=
  if s.isRunning && s.isStation && s.lbc.planResult == .inProgress then
    s.lbc.transfer.filter (fun x => x.console == sender && x.planId == planId)
  else none

/-- Entries of the last block: a remainder of 0 counts as 8. -/
def lastBlock (remainder : Nat) : Nat := if remainder = 0 then 8 else remainder

/-- The announced count (R173). -/
def Transfer.announced (x : Transfer) : Nat := (x.blocks - 1) * 8 + lastBlock x.remainder

/-- The entry count a block of an index is to have. -/
def Transfer.wanted (x : Transfer) (index : Nat) : Nat := if index < x.blocks - 1 then 8 else lastBlock x.remainder

/-- A transfer ends REJECTED with PLAN_FAULT. -/
def State.rejectTransfer (s : State) : State := (s.closeTransfer .rejected).raise .planFault Loc.none

/-- PLAN_BLOCK (R174). -/
def State.takePlanBlock (s : State) (sender planId index : Nat) (es : List PlanEntry) : State :=
  match s.planOf sender planId with
  | none => s
  | some x =>
    if index == x.nextIndex && decide (index < x.blocks) && es.length == x.wanted index then
      let s1 := es.foldl State.stage s
      let s2 : State := { s1 with lbc := { s1.lbc with
        transfer := some { x with nextIndex := x.nextIndex + 1, received := x.received + es.length } } }
      match x.timer with
      | some h => s2.reloadTimer h planTimeout
      | none => s2
    else s.rejectTransfer

/-- PLAN_CLOSE (R175, R18). -/
def State.takePlanClose (s : State) (sender planId total : Nat) : State :=
  match s.planOf sender planId with
  | none => s
  | some x =>
    if x.nextIndex == x.blocks && x.received == x.announced && total == x.announced then
      match s.applyStaging with
      | (s1, true) => (s1.closeTransfer .done).answerPlan sender 15 planId .done
      | (s1, false) => s1.rejectTransfer.answerPlan sender 15 planId .refused
    else s.rejectTransfer.answerPlan sender 15 planId .refused

/-- The plan timer expires (R175). -/
def State.planExpires (s : State) : State := s.closeTransfer .timedOut

end Sys2Proof.Machine
end

