-- ==== Sys2Proof/Machine/Directives.lean ====
section
/-! DEFINITION. Directive Checker (10.6): the order of its checks, the answers, and the directives on train records,
announcements and the day. -/

namespace Sys2Proof.Machine

open Sys2Proof

/-! ## Answers (R188, R190) -/

/-- An ANSWER goes to its target; one to this node itself, from its own workstation's directive, is forwarded as a
VIEW. The warm start that follows a console's RESTART_NODE to itself then hangs on that VIEW: R190 and R196 speak of
an ANSWER handed to the LBC alone (DESIGN CHOICE, log 82). -/
def State.sendAnswer (s : State) (target : Nat) (b : AnswerBody) (note : TxNote := .none) : State :=
  if target == s.cfg.node then
    s.view (.telegram (emitTelegram { sender := s.cfg.node, target := target, body := .answer b })) note
  else s.send target (.answer b) note

/-- The ANSWER to a directive with no points. -/
def answerTo (serial : Nat) (d : Directive) (r : AnswerResult) : AnswerBody :=
  { code := d.code, serial := serial, result := r, points := none }

/-- The answer is stored in the sender's last-answer record (R189). -/
def State.storeAnswer (s : State) (i : Nat) (b : AnswerBody) : State :=
  { s with dck := { s.dck with lastAnswers := s.dck.lastAnswers.set i (some b) } }

/-! ## Directives on train records (R19 to R21) -/

/-- What a directive's run and platform name (R19). -/
inductive Named where
  | refused
  | unknown
  | record (tag : Nat)
  deriving DecidableEq, Repr

/-- A given platform is configured, or none is given. -/
def State.platformOk (s : State) (p : Option Nat) : Bool :=
  match p with
  | some p => decide (p < s.platformCount)
  | none => true

/-- The record a directive names (R19). -/
def State.named (s : State) (run : Nat) (platform : Option Nat) : Named :=
  if !s.platformOk platform then .refused
  else if run = 0 then
    match platform with
    | none => .refused
    | some p =>
      match (s.plat p).occupant.bind s.recOf with
      | some r => if r.run = 0 then .record r.tag else .unknown
      | none => .unknown
  else
    match s.recOfRun run with
    | some r => .record r.tag
    | none => .unknown

/-- HOLD_TRAIN and RELEASE_TRAIN (R19): the RGE is notified of the flag. -/
def State.holdDirective (s : State) (run : Nat) (platform : Option Nat) (flag : Bool) : State × AnswerResult :=
  match s.named run platform with
  | .refused => (s, .refused)
  | .unknown => (s, .unknown)
  | .record t => ((s.updRec t (fun r => { r with consoleHold := flag })).post .holdRecompute, .done)

/-- The PENDING launch list entry of a run becomes CANCELLED. -/
def cancelLaunch (run : Nat) (l : List LaunchEntry) : List LaunchEntry :=
  l.map (fun e => if e.state == .pending && e.plan.run == run then { e with state := .cancelled } else e)

/-- WITHDRAW_RUN (R20). -/
def State.withdrawDirective (s : State) (run : Nat) (platform : Option Nat) : State × AnswerResult :=
  match s.named run platform with
  | .refused => (s, .refused)
  | .record t => ((s.updRec t (fun r => { r with withdraw := true })).post .holdRecompute, .done)
  | .unknown =>
    if s.isStation && s.ttu.launch.any (fun e => e.state == .pending && e.plan.run == run) then
      ({ s with ttu := { s.ttu with launch := cancelLaunch run s.ttu.launch } }, .done)
    else (s, .unknown)

/-- The occupying record of platform p. -/
def State.occupantOf (s : State) (p : Nat) : Option TrainRec := (s.plat p).occupant.bind s.recOf

/-- INSERT_RUN is refused at a given platform (R21). -/
def State.insertBarred (s : State) (a : InsertArgs) (p : Nat) : Bool :=
  !s.receives p a.dir
    || (s.plat p).occupied &&
      ((match s.occupantOf p with | some r => r.state != .spare || r.withdraw | none => false)
        || (match s.pcfg p with | some c => c.turnback | none => false))

/-- A record as INSERT_RUN gives it. -/
def insertRec (a : InsertArgs) (st : TrainState) : TrainRec :=
  { TrainRec.blank a.run a.dir st with origin := a.origin, dest := a.dest, pclass := a.pclass }

/-- An APPROACHING record is created with its stall watch. -/
def State.insertApproaching (s : State) (a : InsertArgs) : State × AnswerResult :=
  match s.createRec (insertRec a .approaching) with
  | (s1, .created t) => (s1.startWatch t, .done)
  | (s1, _) => (s1, .refused)

/-- A run is inserted at an occupied platform: the SPARE record takes it, or a record is created. -/
def State.insertAtBerth (s : State) (a : InsertArgs) (p : Nat) : State × AnswerResult :=
  match s.occupantOf p with
  | some r =>
    ((s.updRec r.tag (fun x =>
      { x with
        run := a.run
        dir := a.dir
        origin := a.origin
        dest := a.dest
        pclass := a.pclass
        state := .dwelling })).post (.compute p r.tag), .done)
  | none =>
    match s.createRec { insertRec a .dwelling with platform := some p, aa := (s.plat p).since } with
    | (s1, .created t) => ((s1.setOccupant p (some t)).post (.compute p t), .done)
    | (s1, _) => (s1, .refused)

/-- INSERT_RUN (R21). -/
def State.insertDirective (s : State) (a : InsertArgs) : State × AnswerResult :=
  if a.run = 0 || !s.platformOk a.platform || s.runCarried a.run then (s, .refused)
  else
    match a.platform with
    | none => s.insertApproaching a
    | some p =>
      if s.insertBarred a p then (s, .refused)
      else if (s.plat p).occupied then s.insertAtBerth a p
      else s.insertApproaching a

/-! ## Announcements and the day (R136, R157) -/

/-- The zone set names only configured platforms and is not empty. -/
def State.zonesOk (s : State) (z : BitVec 5) : Bool :=
  z != 0 && (List.range 4).all (fun p => !z.getLsbD p || decide (p < s.platformCount))

/-- ANNOUNCE (R136), its priority clamped. -/
def State.announceDirective (s : State) (sender : Nat) (a : AnnounceArgs) : State × AnswerResult :=
  if !s.isStation || (templateOf s.cfg.announce a.template).isEmpty || !s.zonesOk a.zones || 7 < a.repeatCount
      || 6000 < a.interval then (s, .refused)
  else
    match s.takeRequest { template := a.template, priority := a.priority, zones := a.zones, slots := a.slots,
                          repeatCount := a.repeatCount, interval := a.interval, source := .console sender,
                          flag := none } with
    | (s1, true) => (s1, .done)
    | (s1, false) => (s1, .refused)

/-- CANCEL_ANNOUNCE (R136). -/
def State.cancelDirective (s : State) (template : Nat) (slots : List Nat) (zones : BitVec 5) : State × AnswerResult :=
  match s.cancelSame template slots zones with
  | (s1, true) => (s1, .done)
  | (s1, false) => (s1, .unknown)

/-- DAY_START (R157, R22). -/
def State.dayDirective (s : State) (t : Nat) : State × AnswerResult :=
  if serviceMax < t then (s, .refused) else ((s.setClockTo t).purgeLaunch, .done)

/-! ## The checks (R189) -/

/-- The clamp of step 5: severity, CUT, priority. -/
def clampDirective (level : Nat) : Directive → Directive
  | .declareIncident d =>
    .declareIncident { d with
      severity := min d.severity (levelCeiling level)
      effects := { d.effects with cut := d.effects.cut && decide (3 ≤ level) } }
  | .announce a => .announce { a with priority := min a.priority (levelCeiling level) }
  | d => d

/-- A severity or priority of 0 (step 5). -/
def Directive.zeroGiven : Directive → Bool
  | .declareIncident d => d.severity == 0
  | .announce a => a.priority == 0
  | _ => false

/-- A kind not in Table 10-7 (step 3). -/
def Directive.isUnknown : Directive → Bool
  | .unknown .. => true
  | _ => false

/-- The owner's result (step 6); RESTART_NODE is answered DONE. -/
def State.carryOut (s : State) (sender : Nat) : Directive → State × AnswerResult
  | .ackIncident i => s.ackDirective sender i
  | .holdTrain r p => s.holdDirective r p true
  | .releaseTrain r p => s.holdDirective r p false
  | .announce a => s.announceDirective sender a
  | .cancelAnnounce t l z => s.cancelDirective t l z
  | .declareIncident d => s.declareDirective d
  | .fieldQuery => (s, .done)
  | .clearIncident i => s.clearDirective i
  | .withdrawRun r p => s.withdrawDirective r p
  | .insertRun a => s.insertDirective a
  | .setMode m p => s.setModeDirective m p
  | .isolateSection i => s.isolateDirective i
  | .restoreSection i => s.restoreDirective i
  | .clearOverflow => s.overflowDirective
  | .dayStart t => s.dayDirective t
  | .restartNode => (s, .done)
  | .unknown .. => (s, .refused)

/-- A RESTART_NODE orders a warm start; one taken while a warm start is pending joins it (R196; log 36). -/
def State.orderRestart (s : State) : Directive → State × TxNote
  | .restartNode =>
    if s.cfl.restart == .idle then ({ s with cfl := { s.cfl with restart := .waiting } }, .restart) else (s, .none)
  | _ => (s, .none)

/-- The points an ANSWER carries: those of the field image for FIELD_QUERY (R190). -/
def State.answerPoints (s : State) : Directive → Option (List PointVal)
  | .fieldQuery => some s.slc.image
  | _ => none

/-- Step 6 for entry i of the authority table: the owner's result is answered and stored. -/
def State.ownerStep (s : State) (i sender serial : Nat) (d : Directive) : State :=
  let r := s.carryOut sender d
  let b : AnswerBody := { code := d.code, serial := serial, result := r.2, points := r.1.answerPoints d }
  let x := (r.1.storeAnswer i b).orderRestart d
  x.1.sendAnswer sender b x.2

/-- An answer of steps 3 to 5, stored. -/
def State.refuseStep (s : State) (i sender serial : Nat) (d : Directive) (r : AnswerResult) : State :=
  (s.storeAnswer i (answerTo serial d r)).sendAnswer sender (answerTo serial d r)

/-- Steps 3 to 6 for a sender in the table. -/
def State.checkDirective (s : State) (i level sender serial : Nat) (d : Directive) : State :=
  if d.isUnknown then s.refuseStep i sender serial d .refused
  else if level < d.level then s.refuseStep i sender serial d .denied
  else if d.zeroGiven then s.refuseStep i sender serial d .refused
  else s.ownerStep i sender serial (clampDirective level d)

/-- The stored answer of entry i when it has the serial (step 2). -/
def State.storedAnswer (s : State) (i serial : Nat) : Option AnswerBody :=
  (s.dck.lastAnswers.getD i none).filter (fun b => b.serial == serial)

/-- The DCK takes a directive (R189). -/
def State.takeDirective (s : State) (sender serial : Nat) (d : Directive) : State :=
  match s.cfl.start with
  | .loading | .listen | .configFault => s
  | .rebuild => s.sendAnswer sender (answerTo serial d .busy)
  | .running =>
    match s.consoleIndex sender with
    | none => s.sendAnswer sender (answerTo serial d .denied)
    | some i =>
      match s.storedAnswer i serial with
      | some b => s.sendAnswer sender b
      | none =>
        match s.cfg.consoles[i]? with
        | some c => s.checkDirective i c.level sender serial d
        | none => s

/-! ## The workstation (R187) -/

/-- Order codes of Table 12-9. -/
def orderCode : Report → Nat
  | .planClear => 1
  | .planEntry _ => 2
  | .planSend .. => 3
  | .directive .. | .point .. | .sweepBegin | .sweepEnd => 0

/-- A local result. -/
def State.localResult (s : State) (r : Report) (x : AnswerResult) : State := s.view (.result (orderCode r) x)

/-- A plan is being sent. -/
def State.sendingPlan (s : State) : Bool := s.lbc.outPlan.isSome

/-- An entry of the outgoing plan buffer. -/
def State.appendEntry (s : State) (e : PlanEntry) : State :=
  { s with ttu := { s.ttu with launch := s.ttu.launch ++ [{ plan := e, state := .pending }] } }

/-- A workstation order taken in RUNNING. -/
def State.takeOrder (s : State) (r : Report) : State :=
  match r with
  | .directive target serial d =>
    if target = 0 then s.localResult r .refused
    else if target == s.cfg.node then s.takeDirective s.cfg.node serial d
    else s.send target (.directive serial d)
  | .planClear =>
    if s.sendingPlan then s.localResult r .busy
    else ({ s with ttu := { s.ttu with launch := [] } } : State).localResult r .done
  | .planEntry e =>
    if launchRoom ≤ s.ttu.launch.length then s.localResult r .refused
    else if s.sendingPlan then s.localResult r .busy
    else (s.appendEntry e).localResult r .done
  | .planSend target planId =>
    if s.sendingPlan then s.localResult r .busy
    else if s.ttu.launch.isEmpty then s.localResult r .refused
    else (s.handStage { target := target, planId := planId, stage := .opening }).localResult r .done
  | .point .. | .sweepBegin | .sweepEnd => s

/-- A workstation order: BUSY in any start state but RUNNING (R187). -/
def State.workstation (s : State) (r : Report) : State :=
  if s.isRunning then s.takeOrder r else s.localResult r .busy

end Sys2Proof.Machine
end

