-- ==== Sys2Proof/Machine/Settle.lean ====
section
/-! DEFINITION. Requests between blocks taken within an event, in the order they are made, those they cause first, but
what the INU is told of one condition in the order it is told (00 2, R4, R155; log 9). -/

namespace Sys2Proof.Machine

open Sys2Proof

/-- A section's state has changed: the RGE's holds, the HOE's watches, the SAR's queue. R86 names the three, and the
model tells them in that order (DESIGN CHOICE, log 85). -/
def State.sectionMoved (s : State) (k : Nat) : State := (s.recomputeHolds.feedWatches).reevaluate k

/-- A section timer's expiry is given to the SCM (R79, R80). -/
def State.sectionTimerEnds (s : State) (k : Nat) : State :=
  match (s.sec k).state with
  | some .recloseWait => s.reclose k
  | some .reclosing | some .restoring => s.lockOut k
  | _ => s

/-- The set of acting entries has changed (R125): the RGE's holds, then the SCM's cuts. R82 and R125 do not order
them, so that of an incident with both effects an AUTHORITY OFF is queued before a BREAKER OPEN (DESIGN CHOICE, log
85). -/
def State.actingTold (s : State) : State := s.recomputeHolds.checkCuts

/-- An expiry that a load of 0 gives at once is taken by the timer's owner (R150). A bound channel's load of 0 is taken
by its loader (`loadDwell`). -/
def State.ownerExpires (s : State) : TimerOwner → State
  | .powerWait p => s.powerWaitExpires p
  | .handoverRetry tag => s.retryEnds tag
  | .stallWatch tag => s.watchExpires tag
  | .rebuild => if s.cfl.start == .rebuild then s.rebuildExpires else s
  | .sectionTimer k => s.sectionTimerEnds k
  | .escalation serial => s.escalates { node := s.cfg.node, serial := serial }
  | .wake => s.wakeExpired
  | .player => s.playerExpired
  | .plan => s.planExpires
  | .dwell _ | .statusPeriod => s

/-- One request, taken by the block it is made to. -/
def handleMsg : Msg → State → State
  | .raise r, s => (s.takeRaise r).1
  | .condEnd k l, s => s.takeEnd k l
  | .levelCheck, s => s.checkLevel
  | .actingChanged, s => s.actingTold
  | .holdRecompute, s => s.recomputeHolds
  | .compute p t, s => s.compute p t
  | .sectionChanged k, s => s.sectionMoved k
  | .grant p n o k, s => s.takeGrant p n o k
  | .defer _ _, s => s
  | .tagGone t run, s => (s.contextsGone t).hoeGone t run
  | .enteredHanding t, s => s.openHandover t
  | .tookBerth t run, s => s.watchBerthed t run
  | .announce r, s => s.handleAnnounce r
  | .cancelSource x t, s => s.cancelPair x t
  | .select, s => s.select
  | .pump, s => s.pump
  | .boundary, s => s.boundary
  | .rebuildCheck, s => s.checkRebuild
  | .timerExpired o, s => s.ownerExpires o

/-- The condition that a request tells the INU of, by its kind and location (R113, R114). -/
def Msg.condition : Msg → Option (IncKind × Loc)
  | .raise r => some (r.kind, r.loc)
  | .condEnd k l => some (k, l)
  | _ => none

/-- A waiting request tells the INU of a condition of which a newer one tells it too. -/
def Msg.toldBefore (newer : List Msg) (m : Msg) : Bool :=
  m.condition.isSome && newer.any (fun x => x.condition == m.condition)

/-- The requests that one causes come before those that wait. But a raise and an end of one condition stay in the order
in which they were made: the INU is told of a refusal before the release that follows it (R155; log 9). -/
def joinWork (caused waiting : List Msg) : List Msg :=
  waiting.filter (Msg.toldBefore caused) ++ caused ++ waiting.filter (fun m => !m.toldBefore caused)

/-- The first request is taken, and those it causes join the rest. -/
def State.takeFirst (s : State) : State :=
  match s.work with
  | [] => s
  | m :: ms =>
    let t := handleMsg m { s with work := [] }
    { t with work := joinWork t.work ms }

/-- Requests are taken until none is left, at most `fuel` of them. -/
def settleN : Nat → State → State
  | 0, s => s
  | fuel + 1, s => if s.work.isEmpty then s else settleN fuel s.takeFirst

/-- Greatest number of requests taken in one event (log 9). -/
def settleFuel : Nat := 65536

/-- A chain of more than `settleFuel` requests, which no event of the manual makes, is cut: the requests left are
dropped, and the operating level and the ALERT pin are as the incident table then gives them (R126; log 9). -/
def State.cutShort (s : State) : State :=
  { s with work := [], inu := { s.inu with level := s.levelNow }, pins := { s.pins with alert := s.alertAt s.levelNow } }

/-- The end of an event: every request taken, then the INCIDENTs due sent (R128). No event leaves a request behind. -/
def finish (s : State) : State :=
  let t := settleN settleFuel s
  (if t.work.isEmpty then t else t.cutShort).flushIncidents

/-! ## Events -/

/-- An event that has an occasion changes the state and every request it causes is taken; one that has none changes
nothing, and a node whose RESET is held low takes none (R193; log 1). -/
def onEvent (s : State) (occasion : Bool) (f : State → State) : Host.Outcome State Fault Refusal :=
  .next (if !s.pins.resetLow && occasion then finish (f s) else s)

/-- The telegram at the head of the receive queue is of a kind. -/
def State.rxHead (s : State) (want : Body → Bool) : Bool :=
  match s.lbc.rx with
  | r :: _ => want r.tg.body
  | [] => false

/-- A telegram of a kind is taken from the head of the receive queue. -/
def onKind (s : State) (want : Body → Bool) (f : Telegram → State → State) : Host.Outcome State Fault Refusal :=
  onEvent s (s.rxHead want) (fun s => s.onTelegram want f)

/-- A telegram of a kind is taken from the head of the receive queue, with its reception. -/
def onReceivedKind (s : State) (want : Body → Bool) (f : Received → State → State) : Host.Outcome State Fault Refusal :=
  onEvent s (s.rxHead want) (fun s => s.onReceived want f)

/-- The body is a DIRECTIVE of a kind. -/
def isDirective (want : Directive → Bool) : Body → Bool
  | .directive _ d => want d
  | _ => false

/-- A DIRECTIVE of a kind is taken from the head of the receive queue (R189). -/
def onDirectiveKind (s : State) (want : Directive → Bool) : Host.Outcome State Fault Refusal :=
  onKind s (isDirective want) (fun t s =>
    match t.body with
    | .directive serial d => s.takeDirective t.sender serial d
    | _ => s)

/-- The report at the head of the report FIFO is of a kind. -/
def State.reportHead (s : State) (want : Report → Bool) : Bool :=
  match s.slc.reports with
  | r :: _ => want r
  | [] => false

/-- A report of a kind is taken from the head of the report FIFO (R182). -/
def onReport (s : State) (want : Report → Bool) (f : Report → State → State) : Host.Outcome State Fault Refusal :=
  onEvent s (s.reportHead want) (fun s => s.takeReport want f)

end Sys2Proof.Machine
end

