-- ==== Sys2Proof/Machine/AnnounceEvents.lean ====
section
/-! DEFINITION. Events of the Announcement Unit (07). -/

namespace Sys2Proof.Machine

open Sys2Proof

/-- ANNOUNCE (R136, R189). -/
def execAnnounce (s : State) : Host.Outcome State Fault Refusal :=
  onDirectiveKind s (fun d => match d with | .announce _ => true | _ => false)

/-- CANCEL_ANNOUNCE (R136, R189). -/
def execCancelAnnounce (s : State) : Host.Outcome State Fault Refusal :=
  onDirectiveKind s (fun d => match d with | .cancelAnnounce .. => true | _ => false)

/-- WAKE_TIMER_EXPIRY (R138). -/
def execWakeTimerExpiry (s : State) : Host.Outcome State Fault Refusal :=
  onEvent s (s.expiredOpt s.anu.wake) State.wakeExpired

/-- READY_RISE (R142): the level is followed in every state. -/
def execReadyRise (s : State) : Host.Outcome State Fault Refusal :=
  .next (if s.pins.ready then s else finish s.readyRises)

/-- READY_FALL (R142). -/
def execReadyFall (s : State) : Host.Outcome State Fault Refusal :=
  .next (if s.pins.ready then finish s.readyFalls else s)

/-- PLAYER_TIMER_EXPIRY (R142). -/
def execPlayerTimerExpiry (s : State) : Host.Outcome State Fault Refusal :=
  onEvent s (s.expiredOpt s.anu.playerTimer) State.playerExpired

end Sys2Proof.Machine
end

