-- ==== Sys2Proof/Machine/Clock.lean ====
section
/-! DEFINITION. Events of the Timing Unit (08): the tick, the trim, the status period, DAY_START. -/

namespace Sys2Proof.Machine

open Sys2Proof

/-- TICK (R148): while RESET is held low the divider alone runs. -/
def execTick (s : State) : Host.Outcome State Fault Refusal :=
  .next (if s.pins.resetLow then { s with refMoment := s.tickStart + cyclesPerTick } else s.tickAll)

/-- CLOCK_TRIM (R159). -/
def execClockTrim (s : State) : Host.Outcome State Fault Refusal := onEvent s s.tiu.trimDue State.trimClock

/-- The rebuild timer's fallback: the second status period after the entry to REBUILD is taken as its expiry (R64). -/
def State.rebuildPeriod (s : State) : State :=
  match s.cfl.start, s.hoe.rebuildFallback with
  | .rebuild, some n =>
    if n ≤ 1 then s.rebuildExpires else { s with hoe := { s.hoe with rebuildFallback := some (n - 1) } }
  | _, _ => s

/-- The status period (R152, R171, R144; log 39): lines are formed when the node is in RUNNING as the period comes. -/
def State.statusPeriod (s : State) : State :=
  let s1 := s.updChan 4 (fun c => { c with expiryDue := false })
  let s2 := s1.rebuildPeriod.formStatus
  if s.isRunning then s2.showLines else s2

/-- STATUS_PERIOD (R152). -/
def execStatusPeriod (s : State) : Host.Outcome State Fault Refusal :=
  onEvent s (s.chan 4).expiryDue State.statusPeriod

/-- DAY_START (R157, R189). -/
def execDayStart (s : State) : Host.Outcome State Fault Refusal :=
  onDirectiveKind s (fun d => match d with | .dayStart _ => true | _ => false)

end Sys2Proof.Machine
end

