-- ==== Sys2Proof/Machine/Departures.lean ====
section
/-! DEFINITION. Events of the departure sequence (02) and the directives on train records and modes (R19 to R21, R27).
-/

namespace Sys2Proof.Machine

open Sys2Proof

/-- An event of platform p's departure context, with the platform's constants. -/
def onPlatform (s : State) (p : Nat) (occasion : Bool) (f : PlatformCfg → State → State) :
    Host.Outcome State Fault Refusal :=
  match s.pcfg p with
  | some c => onEvent s occasion (f c)
  | none => onEvent s false id

/-- The dwell channel's expiry is due with a channel use. -/
def State.dwellDue (s : State) (p : Nat) (u : ChannelUse) : Bool := (s.ctx p).use == u && s.dwellExpiryDue p

/-- DWELL_MARK (R34). -/
def execDwellMark (platform : Nat) (s : State) : Host.Outcome State Fault Refusal :=
  onPlatform s platform (s.dwellMarkDue platform) (fun c s => (s.takeMark platform).takeTheMark platform c)

/-- DWELL_EXPIRY (R33). -/
def execDwellExpiry (platform : Nat) (s : State) : Host.Outcome State Fault Refusal :=
  onPlatform s platform (s.dwellDue platform .toTr) (fun c s => (s.takeDwellExpiry platform).targetExpires platform c)

/-- AUTH_WAIT_EXPIRY (R37). -/
def execAuthWaitExpiry (platform : Nat) (s : State) : Host.Outcome State Fault Refusal :=
  onPlatform s platform (s.dwellDue platform .authWait) (fun c s => (s.takeDwellExpiry platform).authExpires platform c)

/-- CUE_WAIT_EXPIRY (R41). -/
def execCueWaitExpiry (platform : Nat) (s : State) : Host.Outcome State Fault Refusal :=
  onPlatform s platform (s.dwellDue platform .cueWait) (fun _ s => (s.takeDwellExpiry platform).cueWaitExpires platform)

/-- POWER_WAIT_EXPIRY (R35, R102). -/
def execPowerWaitExpiry (platform : Nat) (s : State) : Host.Outcome State Fault Refusal :=
  onPlatform s platform (s.expiredOpt (s.ctx platform).powerWait) (fun _ s => s.powerWaitExpires platform)

/-- HOLD_TRAIN (R19, R189). -/
def execHoldTrain (s : State) : Host.Outcome State Fault Refusal :=
  onDirectiveKind s (fun d => match d with | .holdTrain .. => true | _ => false)

/-- RELEASE_TRAIN (R19, R189). -/
def execReleaseTrain (s : State) : Host.Outcome State Fault Refusal :=
  onDirectiveKind s (fun d => match d with | .releaseTrain .. => true | _ => false)

/-- WITHDRAW_RUN (R20, R189). -/
def execWithdrawRun (s : State) : Host.Outcome State Fault Refusal :=
  onDirectiveKind s (fun d => match d with | .withdrawRun .. => true | _ => false)

/-- INSERT_RUN (R21, R189). -/
def execInsertRun (s : State) : Host.Outcome State Fault Refusal :=
  onDirectiveKind s (fun d => match d with | .insertRun _ => true | _ => false)

/-- SET_MODE (R27, R189). -/
def execSetMode (s : State) : Host.Outcome State Fault Refusal :=
  onDirectiveKind s (fun d => match d with | .setMode .. => true | _ => false)

end Sys2Proof.Machine
end

