-- ==== Sys2Proof/Machine/FieldEvents.lean ====
section
/-! DEFINITION. Events of the Station Link Controller and the Directive Checker (10). -/

namespace Sys2Proof.Machine

open Sys2Proof

/-! ## Frames and reports -/

/-- A report's kind is taken in the node's role (Table 10-2); while no image is loaded the role is STATION (log 24). -/
def State.roleTakes (s : State) : Report → Bool
  | .point .. | .sweepBegin | .sweepEnd => s.isStation
  | .directive .. | .planClear | .planEntry _ | .planSend .. => !s.isStation

/-- A valid frame (R180 to R183). -/
def State.frame (s : State) (f : InFrame) : State :=
  let s1 := ({ s with slc := { s.slc with lastValid := s.runTime } } : State).restoreLink
  match f with
  | .idle => s1
  | .report r => if s1.roleTakes r then s1.joinReports r else s1

/-- VALID_FRAME (R180, R201). -/
def execValidFrame (bytes : Bytes) (s : State) : Host.Outcome State Fault Refusal :=
  match parseFrame bytes with
  | some f => onEvent s true (fun s => s.frame f)
  | none => onEvent s false id

/-- A POINT report (R182): the image is set; from the entry to LISTEN onward its block is given it. While the link is
LOST no report of any point is given, and the point keeps its value, stale (R75, R180; log 57). A node in CONSOLE role
takes none (Table 10-2, R190), one left in the FIFO from LOADING included (DEDUCED, log 83). -/
def State.takePoint (s : State) (n v : Nat) : State :=
  if s.slc.link == .lost || !s.isStation then s
  else
    let s1 := s.setPoint n v
    if s1.listening then
      match s1.pointUse n with
      | .breaker k => s1.breakerReport k v
      | .alarm _ | .doorFault _ | .intrusion _ => s1.pointReport n v
      | .unassigned => s1
    else s1

/-- POINT (R182). -/
def execPoint (s : State) : Host.Outcome State Fault Refusal :=
  onReport s (fun r => match r with | .point .. => true | _ => false) (fun r s =>
    match r with
    | .point n v => s.takePoint n v
    | _ => s)

/-- SWEEP_BEGIN (R184); in CONFIG_FAULT the sweep stays in its cold-start state (R197). -/
def execSweepBegin (s : State) : Host.Outcome State Fault Refusal :=
  onReport s (fun r => match r with | .sweepBegin => true | _ => false) (fun _ s =>
    if s.cfl.start == .configFault then s else s.beginSweep)

/-- SWEEP_END (R184). -/
def execSweepEnd (s : State) : Host.Outcome State Fault Refusal :=
  onReport s (fun r => match r with | .sweepEnd => true | _ => false) (fun _ s => s.endSweep)

/-- SWEEP_WAIT_END (R184). -/
def execSweepWaitEnd (s : State) : Host.Outcome State Fault Refusal :=
  onEvent s (s.cfl.start != .configFault) State.sweepOverdue

/-- STATION_LINK_SILENCE (R180). -/
def execStationLinkSilence (s : State) : Host.Outcome State Fault Refusal :=
  onEvent s (s.slc.link == .up && s.reached (s.slc.lastValid + 30)) State.loseLink

/-- STATION_LINK_BREAK (R180). -/
def execStationLinkBreak (s : State) : Host.Outcome State Fault Refusal :=
  onEvent s (s.slc.link == .up) State.loseLink

/-- COMMAND_FRAME_SENT (R186). -/
def execCommandFrameSent (s : State) : Host.Outcome State Fault Refusal :=
  onEvent s (!s.slc.cmds.isEmpty) State.commandSent

/-- The bytes that SL_TX sends: the frame of the head command (R186, R201). -/
def State.slTx (s : State) : Bytes :=
  match s.slc.cmds with
  | x :: _ => emitCommand x.cmd
  | [] => []

/-! ## The workstation (R187) -/

/-- WORKSTATION_DIRECTIVE (R187). -/
def execWorkstationDirective (s : State) : Host.Outcome State Fault Refusal :=
  onReport s (fun r => match r with | .directive .. => true | _ => false) (fun r s => s.workstation r)

/-- PLAN_CLEAR (R187). -/
def execPlanClear (s : State) : Host.Outcome State Fault Refusal :=
  onReport s (fun r => match r with | .planClear => true | _ => false) (fun r s => s.workstation r)

/-- PLAN_ENTRY (R187). -/
def execPlanEntry (s : State) : Host.Outcome State Fault Refusal :=
  onReport s (fun r => match r with | .planEntry _ => true | _ => false) (fun r s => s.workstation r)

/-- PLAN_SEND (R187, R176). -/
def execPlanSend (s : State) : Host.Outcome State Fault Refusal :=
  onReport s (fun r => match r with | .planSend .. => true | _ => false) (fun r s => s.workstation r)

/-! ## Directives of no other block (R189, R190) -/

/-- UNKNOWN_DIRECTIVE (R189 step 3). -/
def execUnknownDirective (s : State) : Host.Outcome State Fault Refusal := onDirectiveKind s Directive.isUnknown

/-- FIELD_QUERY (R190). -/
def execFieldQuery (s : State) : Host.Outcome State Fault Refusal :=
  onDirectiveKind s (fun d => match d with | .fieldQuery => true | _ => false)

end Sys2Proof.Machine
end

