-- ==== Sys2Proof/Machine/HandoverEvents.lean ====
section
/-! DEFINITION. Events of the Handover Engine (03). -/

namespace Sys2Proof.Machine

open Sys2Proof

/-- The retry timer of a tag's context is due in a phase. -/
def State.retryDue (s : State) (tag : Nat) (ph : HandoverPhase) : Bool :=
  match s.hctx tag with
  | some x => x.phase == ph && s.expiredOpt x.timer
  | none => false

/-- HANDOVER_RETRY_EXPIRY (R51). -/
def execHandoverRetryExpiry (tag : Nat) (s : State) : Host.Outcome State Fault Refusal :=
  onEvent s (s.retryDue tag .first) (fun s => s.retryExpires tag)

/-- ORPHAN_RETRY_EXPIRY (R56). -/
def execOrphanRetryExpiry (tag : Nat) (s : State) : Host.Outcome State Fault Refusal :=
  onEvent s (s.retryDue tag .orphanRetry) (fun s => s.endOrphanRetry tag)

/-- HANDOVER (R57 to R60). -/
def execHandover (s : State) : Host.Outcome State Fault Refusal :=
  onKind s (fun b => match b with | .handover _ => true | _ => false) (fun t s =>
    match t.body with
    | .handover e => s.takeHandover t.sender e
    | _ => s)

/-- TAKEOVER (R52). -/
def execTakeover (s : State) : Host.Outcome State Fault Refusal :=
  onKind s (fun b => match b with | .takeover .. => true | _ => false) (fun t s =>
    match t.body with
    | .takeover run d q =>
      match s.matchHandover t.sender run d q with
      | some x => s.endHandover d x
      | none => s
    | _ => s)

/-- REFUSAL (R53, R54, R56). -/
def execRefusal (s : State) : Host.Outcome State Fault Refusal :=
  onKind s (fun b => match b with | .refusal .. => true | _ => false) (fun t s =>
    match t.body with
    | .refusal run d q dup =>
      match s.matchHandover t.sender run d q with
      | some x => s.takeRefusal x dup
      | none => s
    | _ => s)

/-- STALL_WATCH_EXPIRY (R63). -/
def execStallWatchExpiry (tag : Nat) (s : State) : Host.Outcome State Fault Refusal :=
  onEvent s (s.expiredOpt ((s.watchOf tag).map (·.timer))) (fun s => s.watchExpires tag)

/-- RENEW_ASK (R65): answered in REBUILD and RUNNING. -/
def execRenewAsk (s : State) : Host.Outcome State Fault Refusal :=
  onKind s (fun b => match b with | .renewAsk _ => true | _ => false) (fun t s =>
    match t.body with
    | .renewAsk d => if s.speaking && s.isStation then s.answerRenewal t.sender d else s
    | _ => s)

/-- RENEW_REPLY (R66): taken in REBUILD. -/
def execRenewReply (s : State) : Host.Outcome State Fault Refusal :=
  onKind s (fun b => match b with | .renewReply .. => true | _ => false) (fun t s =>
    match t.body with
    | .renewReply d c x => if s.cfl.start == .rebuild && s.isStation then s.takeRenewal t.sender d c x else s
    | _ => s)

end Sys2Proof.Machine
end

