-- ==== Sys2Proof/Machine/IncidentEvents.lean ====
section
/-! DEFINITION. Events of the Incident Unit (06). -/

namespace Sys2Proof.Machine

open Sys2Proof

/-- ACK_INCIDENT (R115, R189). -/
def execAckIncident (s : State) : Host.Outcome State Fault Refusal :=
  onDirectiveKind s (fun d => match d with | .ackIncident _ => true | _ => false)

/-- CLEAR_INCIDENT (R116, R189). -/
def execClearIncident (s : State) : Host.Outcome State Fault Refusal :=
  onDirectiveKind s (fun d => match d with | .clearIncident _ => true | _ => false)

/-- DECLARE_INCIDENT (R117, R189). -/
def execDeclareIncident (s : State) : Host.Outcome State Fault Refusal :=
  onDirectiveKind s (fun d => match d with | .declareIncident _ => true | _ => false)

/-- CLEAR_OVERFLOW (R122, R189). -/
def execClearOverflow (s : State) : Host.Outcome State Fault Refusal :=
  onDirectiveKind s (fun d => match d with | .clearOverflow => true | _ => false)

/-- CLEARED_LINGER_END (R118). -/
def execClearedLingerEnd (origin serial : Nat) (s : State) : Host.Outcome State Fault Refusal :=
  onEvent s true (fun s => s.lingerEnds { node := origin, serial := serial })

/-- The id of an own entry. -/
def State.ownId (s : State) (serial : Nat) : IncId := { node := s.cfg.node, serial := serial }

/-- ESCALATION_EXPIRY (R120). -/
def execEscalationExpiry (serial : Nat) (s : State) : Host.Outcome State Fault Refusal :=
  onEvent s (s.expiredOpt ((s.inc (s.ownId serial)).bind (·.timer))) (fun s => s.escalates (s.ownId serial))

/-- INCIDENT (R123, R124). -/
def execIncident (s : State) : Host.Outcome State Fault Refusal :=
  onKind s (fun b => match b with | .incident _ => true | _ => false) (fun t s =>
    match t.body with
    | .incident b => s.takeIncident b
    | _ => s)

/-- PEER_AGEING (R124). -/
def execPeerAgeing (origin serial : Nat) (s : State) : Host.Outcome State Fault Refusal :=
  onEvent s true (fun s => s.peerAges { node := origin, serial := serial })

/-- INCIDENT_REFRESH (R128). -/
def execIncidentRefresh (serial : Nat) (s : State) : Host.Outcome State Fault Refusal :=
  onEvent s true (fun s => s.refreshInc (s.ownId serial))

end Sys2Proof.Machine
end

