-- ==== Sys2Proof/Machine/LineEvents.lean ====
section
/-! DEFINITION. Events of the Line Bus Controller (09). -/

namespace Sys2Proof.Machine

open Sys2Proof

/-- The quiet the node knows of at a moment: what the line shows, and no longer than since the last bit it knows of (log
6). -/
def State.quietAt (s : State) (m quiet : Nat) : Nat := min quiet (bitTimes s.lbc.lastBit m)

/-- A head is ready to start at a moment (R163). -/
def State.mayStart (s : State) (m quiet : Nat) : Bool :=
  s.speaking && s.lbc.sending.isNone && (s.startClass m (s.quietAt m quiet)).isSome

/-- An event at a cycle of the present tick. -/
def onCycle (s : State) (cycle : Nat) (occasion : Nat → Bool) (f : Nat → State → State) :
    Host.Outcome State Fault Refusal :=
  onEvent s true (fun s => s.atCycle cycle occasion f)

/-- TRANSMIT_START (R163, R166). -/
def execTransmitStart (cycle quiet : Nat) (echoed : Bool) (s : State) : Host.Outcome State Fault Refusal :=
  onCycle s cycle (fun m => s.mayStart m quiet) (fun m s => s.transmit m quiet echoed)

/-- A telegram is being sent, the echo of its start seen: it may be sent whole or collide (R164, R166). -/
def State.onLine (s : State) : Bool :=
  match s.lbc.sending with
  | some (_, heard) => heard
  | none => false

/-- TELEGRAM_SENT (R164, R176, R196). -/
def execTelegramSent (cycle : Nat) (s : State) : Host.Outcome State Fault Refusal :=
  onCycle s cycle (fun _ => s.onLine) (fun m s => s.sentWhole m)

/-- COLLISION (R164, R165). -/
def execCollision (cycle : Nat) (s : State) : Host.Outcome State Fault Refusal :=
  onCycle s cycle (fun _ => s.onLine) (fun m s => s.collide m)

/-- The bit times within which the echo of a start's first bit must follow (R166). -/
abbrev echoBits : Nat := 24

/-- 24 bit times have passed since a start whose echo has not been seen (R166). -/
def State.echoMissed (s : State) (m : Nat) : Bool :=
  match s.lbc.sending with
  | some (_, heard) => !heard && decide (echoBits ≤ bitTimes s.lbc.startedAt m)
  | none => false

/-- ECHO_FAULT (R166). -/
def execEchoFault (cycle : Nat) (s : State) : Host.Outcome State Fault Refusal :=
  onCycle s cycle (fun m => s.echoMissed m) (fun _ s => s.faultEcho)

/-- LINE_BUS_FAULT_QUIET_END (R165). -/
def execLineBusFaultQuietEnd (s : State) : Host.Outcome State Fault Refusal :=
  onEvent s (s.lbc.faultPresent && !s.lbc.mute && s.quietOfDrops) State.endLineFault

/-- TELEGRAM_RECEIVED (R167 to R169, R200). -/
def execTelegramReceived (cycle : Nat) (bytes : Bytes) (s : State) : Host.Outcome State Fault Refusal :=
  onCycle s cycle (fun _ => isWhole bytes) (fun m s => s.receive m bytes)

/-- FRAGMENT (R200): its moment is the one at which the line has been quiet for 12 bit times. -/
def execFragment (cycle : Nat) (bytes : Bytes) (s : State) : Host.Outcome State Fault Refusal :=
  onCycle s cycle (fun m => isFragment bytes && s.fragmentOver m) (fun m s => s.receiveFragment m)

/-- STATUS (R170). -/
def execStatus (s : State) : Host.Outcome State Fault Refusal :=
  onReceivedKind s (fun b => match b with | .status _ => true | _ => false) (fun r s =>
    match r.tg.body with
    | .status b => s.takeStatus r b
    | _ => s)

/-- NEIGHBOUR_ABSENT (R170). -/
def execNeighbourAbsent (node : Nat) (s : State) : Host.Outcome State Fault Refusal :=
  onEvent s true (fun s => s.ageWatch node)

/-- PLAN_OPEN (R173). -/
def execPlanOpen (s : State) : Host.Outcome State Fault Refusal :=
  onKind s (fun b => match b with | .planOpen .. => true | _ => false) (fun t s =>
    match t.body with
    | .planOpen i n r => s.takePlanOpen t.sender i n r
    | _ => s)

/-- PLAN_BLOCK (R174). -/
def execPlanBlock (s : State) : Host.Outcome State Fault Refusal :=
  onKind s (fun b => match b with | .planBlock .. => true | _ => false) (fun t s =>
    match t.body with
    | .planBlock i n es => s.takePlanBlock t.sender i n es
    | _ => s)

/-- PLAN_CLOSE (R175). -/
def execPlanClose (s : State) : Host.Outcome State Fault Refusal :=
  onKind s (fun b => match b with | .planClose .. => true | _ => false) (fun t s =>
    match t.body with
    | .planClose i n => s.takePlanClose t.sender i n
    | _ => s)

/-- PLAN_TIMER_EXPIRY (R175). -/
def execPlanTimerExpiry (s : State) : Host.Outcome State Fault Refusal :=
  onEvent s (s.expiredOpt (s.lbc.transfer.bind (·.timer))) State.planExpires

/-- ANSWER (R188): forwarded at a console node, passed over at a station node. -/
def execAnswer (s : State) : Host.Outcome State Fault Refusal :=
  onKind s (fun b => match b with | .answer _ => true | _ => false) (fun _ s => s)

/-- The bytes that BUS_TX sends: those of the head being sent (R163, R200). -/
def State.busTx (s : State) : Bytes :=
  match s.lbc.sending with
  | some (c, _) =>
    match s.lbc.queue c with
    | x :: _ => emitTelegram x.tg
    | [] => []
  | none => []

end Sys2Proof.Machine
end

