-- ==== Sys2Proof/Machine/SectionEvents.lean ====
section
/-! DEFINITION. Events of the Section Monitor (04). -/

namespace Sys2Proof.Machine

open Sys2Proof

/-- The section timer of record k is due in a state. -/
def State.secTimerDue (s : State) (k : Nat) (st : SectionState) : Bool :=
  (s.sec k).state == some st && s.expiredOpt (s.sec k).timer

/-- GATE_COMPLETION (R70 to R74). -/
def execGateCompletion (record edges : Nat) (s : State) : Host.Outcome State Fault Refusal :=
  onEvent s (s.sec record).gateStart.isSome (fun s => s.gateEnds record edges)

/-- RECLOSE_DELAY_EXPIRY (R79). -/
def execRecloseDelayExpiry (record : Nat) (s : State) : Host.Outcome State Fault Refusal :=
  onEvent s (s.secTimerDue record .recloseWait) (fun s => s.reclose record)

/-- CLOSE_ALLOWANCE_EXPIRY (R80). -/
def execCloseAllowanceExpiry (record : Nat) (s : State) : Host.Outcome State Fault Refusal :=
  onEvent s (s.secTimerDue record .reclosing || s.secTimerDue record .restoring) (fun s => s.lockOut record)

/-- ISOLATE_SECTION (R84, R189). -/
def execIsolateSection (s : State) : Host.Outcome State Fault Refusal :=
  onDirectiveKind s (fun d => match d with | .isolateSection _ => true | _ => false)

/-- RESTORE_SECTION (R85, R189). -/
def execRestoreSection (s : State) : Host.Outcome State Fault Refusal :=
  onDirectiveKind s (fun d => match d with | .restoreSection _ => true | _ => false)

end Sys2Proof.Machine
end

