-- ==== Sys2Proof/Machine/StartEvents.lean ====
section
/-! DEFINITION. Events of the Start Arbiter (05). -/

namespace Sys2Proof.Machine

open Sys2Proof

/-- An asker record's wait end is reached in a phase. -/
def State.askerDue (s : State) (p : Nat) (ph : AskPhase) : Bool :=
  (s.asker p).phase == ph && s.reachedOpt (s.asker p).waitEnd

/-- COUNTED_START_EXPIRY (R91). -/
def execCountedStartExpiry (record : Nat) (s : State) : Host.Outcome State Fault Refusal :=
  onEvent s ((s.arb record).counted.any (fun c => s.reached c.endTime)) (fun s => s.countedEnd record)

/-- RETRY_WAIT_END (R95). -/
def execRetryWaitEnd (platform : Nat) (s : State) : Host.Outcome State Fault Refusal :=
  onEvent s (s.askerDue platform .retryWait) (fun s => s.presentAgain platform)

/-- ASK_WAIT_END (R99). -/
def execAskWaitEnd (platform : Nat) (s : State) : Host.Outcome State Fault Refusal :=
  onEvent s (s.askerDue platform .waiting) (fun s => s.askAgain platform)

/-- POWER_ASK (R96): taken in RUNNING. -/
def execPowerAsk (s : State) : Host.Outcome State Fault Refusal :=
  onKind s (fun b => match b with | .powerAsk _ => true | _ => false) (fun t s =>
    match t.body with
    | .powerAsk b =>
      match s.sharedWith t.sender b.sec with
      | some k => if s.isRunning then s.ownerAsk k t.sender b else s
      | none => s
    | _ => s)

/-- QUEUED_ASK_REFRESH_EXPIRY (R97). -/
def execQueuedAskRefreshExpiry (record : Nat) (s : State) : Host.Outcome State Fault Refusal :=
  onEvent s true (fun s => s.unheardAsk record)

/-- POWER_RETURN (R98): taken in RUNNING. -/
def execPowerReturn (s : State) : Host.Outcome State Fault Refusal :=
  onKind s (fun b => match b with | .powerReturn .. => true | _ => false) (fun t s =>
    match t.body with
    | .powerReturn id p n =>
      match s.sharedWith t.sender id with
      | some k => if s.isRunning then s.ownerReturn k t.sender p n else s
      | none => s
    | _ => s)

/-- POWER_GRANT (R100): taken in RUNNING. -/
def execPowerGrant (s : State) : Host.Outcome State Fault Refusal :=
  onKind s (fun b => match b with | .powerGrant .. => true | _ => false) (fun t s =>
    match t.body with
    | .powerGrant id p n =>
      match s.ownedBy t.sender id with
      | some k => if s.isRunning then s.askerGrant k id p n else s
      | none => s
    | _ => s)

/-- POWER_DEFER (R100): taken in RUNNING. -/
def execPowerDefer (s : State) : Host.Outcome State Fault Refusal :=
  onKind s (fun b => match b with | .powerDefer .. => true | _ => false) (fun t s =>
    match t.body with
    | .powerDefer id p n _ =>
      match s.ownedBy t.sender id with
      | some _ => if s.isRunning then s.askerDefer id p n else s
      | none => s
    | _ => s)

/-- TAKEN_START_EXPIRY (R100). -/
def execTakenStartExpiry (record : Nat) (s : State) : Host.Outcome State Fault Refusal :=
  onEvent s true (fun s => s.takenEnd record)

end Sys2Proof.Machine
end

