-- ==== Sys2Proof/Machine/Image.lean ====
section
/-! DEFINITION. The configuration image (11.2, 12.4, R192): its frame, its groups, the range and consistency checks. -/

namespace Sys2Proof.Machine

open Sys2Proof

/-! ## Readers of constants -/

/-- A flag: 0 clear, 1 set. -/
def readFlag : Reader Bool := do
  let n ← readIn 1 0 1
  pure (n == 1)

/-- A span: any two 16-bit chainages. -/
def readImageSpan : Reader Span := do
  let a ← read2
  let b ← read2
  pure { fromEnd := a, toEnd := b }

/-- A direction: 0 UP, 1 DOWN. -/
def readImageDir : Reader Dir := do
  let n ← readIn 1 0 1
  pure (if n == 0 then .up else .down)

/-- A phrase code or 0. -/
def readPhrase : Reader Nat := readIn 2 0 1023

/-! ## Groups (Table 12-10) -/

/-- Identity. -/
def readIdentity (c : NodeConfig) : Reader NodeConfig := do
  let node ← readIn 1 1 32
  let role ← readIn 1 0 1
  let ref ← readFlag
  pure { c with node := node, role := if role == 0 then .station else .console, reference := ref }

/-- Neighbours. -/
def readNeighbours (c : NodeConfig) : Reader NodeConfig := do
  let uu ← readIn 1 0 32
  let du ← readIn 1 0 32
  let ud ← readIn 1 0 32
  let dd ← readIn 1 0 32
  let b ← readIn 1 0 1
  pure { c with
    upstreamUp := uu
    downstreamUp := du
    upstreamDown := ud
    downstreamDown := dd
    backoff := if b == 0 then .priority else .rotating }

/-- Spans. -/
def readSpans (c : NodeConfig) : Reader NodeConfig := do
  let u ← readImageSpan
  let d ← readImageSpan
  pure { c with spanUp := some u, spanDown := some d }

/-- A platform record (Table 1-5). -/
def readPlatformCfg : Reader PlatformCfg := do
  let dir ← readImageDir
  let turn ← readFlag
  let onward ← readIn 1 1 255
  let span ← readImageSpan
  let point ← read2
  let dp ← readIn 2 100 1200
  let dmin ← readIn 2 50 65535
  let hmax ← readIn 2 0 1800
  let wtt ← readIn 1 0 16
  let dc ← readIn 2 0 100
  let rw ← readIn 2 0 100
  let bk ← readIn 2 50 300
  let approach ← readIn 2 300 6000
  let offset ← readIn 2 0 36000
  let pw ← readIn 2 0 600
  pure
    { dir := dir, turnback := turn, onward := onward, onwardSpan := span, point := point, dp := dp, dmin := dmin,
      hmax := hmax, wtt := wtt, dc := dc, rw := rw, bk := bk, approach := approach, offset := offset, pw := pw }

/-- Platforms. -/
def readPlatforms (c : NodeConfig) : Reader NodeConfig := do
  let n ← readIn 1 0 4
  let l ← readMany readPlatformCfg n
  pure { c with platforms := l }

/-- A section record (Table 4-1); G, Fz, Ks and Rd are not range-checked when the owner flag is clear (12.4). -/
def readSectionCfg : Reader SectionCfg := do
  let id ← readIn 1 1 255
  let span ← readImageSpan
  let owner ← readFlag
  let partner ← readIn 1 0 32
  let imax ← readIn 2 1000 16000
  let limit ← readIn 1 1 3
  let g ← readNat 4
  let fz ← readNat 4
  let ks ← read2
  let rd ← read2
  need (!owner || (decide (20000 ≤ g ∧ g ≤ 200000) && decide (fz ≤ 250000) && decide (1 ≤ ks ∧ ks ≤ 4095)
    && decide (20 ≤ rd ∧ rd ≤ 600)))
  pure
    { id := id, span := span, owner := owner, partner := partner, imax := imax, limit := limit, g := g, fz := fz,
      ks := ks, rd := rd }

/-- Sections. -/
def readSections (c : NodeConfig) : Reader NodeConfig := do
  let n ← readIn 1 0 4
  let l ← readMany readSectionCfg n
  pure { c with sections := l }

/-- Traction. -/
def readTraction (c : NodeConfig) : Reader NodeConfig := do
  let d ← readMany (readIn 2 0 8000) 4
  let rc ← readIn 2 0 4000
  let sw ← readIn 2 50 600
  pure { c with traction := some { demand := d, rc := rc, sw := sw } }

/-- Incidents. -/
def readIncidents (c : NodeConfig) : Reader NodeConfig := do
  let late ← readIn 2 60 600
  let alert ← readIn 1 1 7
  let ps ← readMany (readIn 4 300 72000) 5
  pure { c with incidents := some { lateThreshold := late, alertLevel := alert, periods := ps } }

/-- Consoles. -/
def readConsoles (c : NodeConfig) : Reader NodeConfig := do
  let m ← readIn 1 0 4
  let l ← readMany (do
    let n ← readIn 1 1 32
    let lv ← readIn 1 1 3
    pure ({ node := n, level := lv } : ConsoleCfg)) m
  pure { c with consoles := l }

/-- A rendering's code. -/
def renderingOf : Nat → Option Rendering
  | 0 => some .digits
  | 1 => some .number
  | 2 => some .minutes
  | 3 => some .destination
  | 4 => some .platform
  | _ => none

/-- An element of a template (12.4): with bit 15 clear, bits 0 to 9 are a phrase code; bits that the layout does
not list are ignored (chapter 12). -/
def readElement : Reader Element := do
  let n ← read2
  if n < 32768 then do
    need (decide (1 ≤ n % 1024))
    pure (.phrase (n % 1024))
  else
    match renderingOf (n % 8) with
    | some r => pure (.slot (n / 256 % 4) r)
    | none => failure

/-- A template. -/
def readTemplate : Reader (List Element) := do
  let n ← readIn 1 0 12
  readMany readElement n

/-- Announcements. -/
def readAnnounceCfg (c : NodeConfig) : Reader NodeConfig := do
  let ts ← readMany readTemplate 64
  let dest ← readMany readPhrase 32
  let plat ← readMany readPhrase 4
  let num ← readMany readPhrase 31
  let fb ← readPhrase
  let lead ← readPhrase
  let a ← readIn 1 0 63
  let d ← readIn 1 0 63
  let h ← readIn 1 0 63
  let r ← readIn 1 0 63
  let kinds ← readMany (readIn 1 0 63) 19
  let rep ← readIn 1 0 7
  let iv ← readIn 2 0 6000
  let tmo ← readIn 1 20 200
  pure { c with announce :=
    { templates := ts, destPhrases := dest, platPhrases := plat, numberPhrases := num, fallback := fb, leadIn := lead,
      srcApproach := a, srcDoor := d, srcHeld := h, srcResume := r, srcKind := kinds, repeatCount := rep,
      repeatInterval := iv, phraseTimeout := tmo } }

/-- A point entry: the index and the zone are 0 where the assignment does not use them. -/
def readPoint : Reader PointUse := do
  let a ← readIn 1 0 4
  let i ← read1
  let z ← readImageSpan
  let noZone := z == { fromEnd := 0, toEnd := 0 }
  match a with
  | 0 => do
    need (i == 0 && noZone)
    pure .unassigned
  | 1 => do
    need (decide (i ≤ 3) && noZone)
    pure (.alarm i)
  | 2 => do
    need (decide (i ≤ 3) && noZone)
    pure (.doorFault i)
  | 3 => do
    need (i == 0)
    pure (.intrusion z)
  | _ => do
    need (decide (i ≤ 3) && noZone)
    pure (.breaker i)

/-- Field. -/
def readField (c : NodeConfig) : Reader NodeConfig := do
  let l ← readMany readPoint 64
  pure { c with points := l }

/-- A track input entry. -/
def readTrack : Reader TrackCfg := do
  let a ← readIn 1 0 2
  let p ← readIn 1 0 3
  let pol ← readIn 1 0 1
  let f ← readIn 1 0 100
  need (a != 0 || p == 0)
  let use := match a with
    | 0 => TrackUse.unused
    | 1 => .berth p
    | _ => .brake p
  pure { use := use, activeLow := pol == 1, filter := f }

/-- Track inputs. -/
def readTracks (c : NodeConfig) : Reader NodeConfig := do
  let l ← readMany readTrack 8
  pure { c with tracks := l }

/-- A group by its code. -/
def readGroup (code : Nat) (c : NodeConfig) : Reader NodeConfig :=
  match code with
  | 1 => readIdentity c
  | 2 => readNeighbours c
  | 3 => readSpans c
  | 4 => readPlatforms c
  | 5 => readSections c
  | 6 => readTraction c
  | 7 => readIncidents c
  | 8 => readConsoles c
  | 9 => readAnnounceCfg c
  | 10 => readField c
  | 11 => readTracks c
  | _ => failure

/-- Groups in code order, each at most once, each of the size its constants give; `last` is the code before, `fuel` the
number of codes left. The identity group is not omitted (12.4). -/
def readGroups : Nat → Nat → NodeConfig → Bytes → Option NodeConfig
  | _, last, c, [] => if 1 ≤ last then some c else none
  | 0, _, _, _ :: _ => none
  | fuel + 1, last, c, code :: rest =>
    if code.toNat ≤ last || (last == 0 && code != 1) then none
    else
      match (readNat 2) rest with
      | none => none
      | some (n, body) =>
        if body.length < n then none
        else
          match readAll (readGroup code.toNat c) (body.take n) with
          | some c1 => readGroups fuel code.toNat c1 (body.drop n)
          | none => none

/-! ## The frame (R192, 12.4) -/

/-- Byte i of the configuration memory: bytes it does not give read as 0xFF (R192; log 37). -/
def memoryByte (image : Bytes) (i : Nat) : Byte := image.getD i 255

/-- n bytes of the memory from its first. -/
def memoryBytes (image : Bytes) (n : Nat) : Bytes := image.take n ++ List.replicate (n - image.length) 255

/-- The image's groups when its frame passes: tag 0xC4 0x02, length 8 to 4,096, CRC-32. -/
def imageGroups (image : Bytes) : Option Bytes :=
  let n := natOf [memoryByte image 2, memoryByte image 3]
  if memoryByte image 0 == 0xC4 && memoryByte image 1 == 0x02 && decide (8 ≤ n ∧ n ≤ 4096) then
    let bs := memoryBytes image n
    if crc32 (bs.take (n - 4)) == natOf (bs.drop (n - 4)) then some ((bs.take (n - 4)).drop 4) else none
  else none

end Sys2Proof.Machine

namespace Sys2Proof

/-! ## Consistency (R192) -/

/-- No two equal. -/
def allDifferent : List Nat → Bool
  | [] => true
  | x :: xs => !xs.contains x && allDifferent xs

/-- The number of inputs with a use. -/
def NodeConfig.inputsFor (c : NodeConfig) (u : TrackUse) : Nat := (c.tracks.filter (fun t => t.use == u)).length

/-- A platform's index is configured. -/
def NodeConfig.hasPlatform (c : NodeConfig) (p : Nat) : Bool := decide (p < c.platforms.length)

/-- Dwell and onward direction. -/
def NodeConfig.platformsOk (c : NodeConfig) : Bool :=
  c.platforms.all (fun p => decide (p.dmin ≤ p.dp) && c.downstream p.dir != 0)

/-- Self. -/
def NodeConfig.selfOk (c : NodeConfig) : Bool :=
  [c.upstreamUp, c.downstreamUp, c.upstreamDown, c.downstreamDown].all (fun n => n != c.node)
    && c.sections.all (fun k => k.partner != c.node)

/-- Inputs. -/
def NodeConfig.inputsOk (c : NodeConfig) : Bool :=
  (List.range c.platforms.length).all (fun p => c.inputsFor (.berth p) == 1 && decide (c.inputsFor (.brake p) ≤ 1))
    && c.tracks.all (fun t => match t.use with
      | .unused => true
      | .berth p | .brake p => c.hasPlatform p)

/-- Points. -/
def NodeConfig.pointsOk (c : NodeConfig) : Bool :=
  c.points.all (fun u => match u with
    | .unassigned | .intrusion _ => true
    | .alarm p | .doorFault p => c.hasPlatform p
    | .breaker k => decide (k < c.sections.length))
    && (List.range c.sections.length).all (fun k => decide ((c.points.filter (fun u => u == .breaker k)).length ≤ 1))

/-- Sections and consoles. -/
def NodeConfig.recordsOk (c : NodeConfig) : Bool :=
  allDifferent (c.sections.map (·.id)) && c.sections.all (fun k => k.owner || k.partner != 0)
    && allDifferent (c.consoles.map (·.node))

/-- Role: a console configures no platform, section, track input or point. -/
def NodeConfig.roleOk (c : NodeConfig) : Bool :=
  c.role == .station ||
    (c.platforms.isEmpty && c.sections.isEmpty && c.tracks.all (fun t => t.use == .unused)
      && c.points.all (fun u => u == .unassigned))

/-- Every consistency check. -/
def NodeConfig.consistent (c : NodeConfig) : Bool :=
  c.platformsOk && c.selfOk && c.inputsOk && c.pointsOk && c.recordsOk && c.roleOk

end Sys2Proof

namespace Sys2Proof.Machine

open Sys2Proof

/-- The constants of an image that passes every check (R192). -/
def parseImage (image : Bytes) : Option NodeConfig :=
  match imageGroups image with
  | none => none
  | some gs =>
    match readGroups 11 0 NodeConfig.blank gs with
    | some c => if c.consistent then some c else none
    | none => none

end Sys2Proof.Machine
end

