-- ==== Sys2Proof/Machine/Startup.lean ====
section
/-! DEFINITION. Configuration and start-up (11): cold and warm starts, the image, the start states. -/

namespace Sys2Proof.Machine

open Sys2Proof

/-! ## Cold starts (R193) -/

/-- The pins at a cold start: outputs as after reset, the levels the surroundings drive as they stand. -/
def State.coldPins (s : State) : Pins := { Pins.cold with resetLow := s.pins.resetLow, ready := s.pins.ready, trk := s.pins.trk }

/-- Every block in its cold-start state at the beginning of LOADING; the time base divider does not restart. -/
def State.coldStart (s : State) : State :=
  { State.reset with pins := s.coldPins, refMoment := s.refMoment, pending := s.pending }

/-- The CFL reads nothing while RESET is held low, so that the memory may be rewritten (R193, R198; log 4). -/
def State.setReset (s : State) (low : Bool) : State := { s with pins := { s.pins with resetLow := low, cfgCs := !low } }

/-- POWER_ON (R193): the divider runs from here. -/
def execPowerOn (s : State) : Host.Outcome State Fault Refusal :=
  .next { ({ s with refMoment := 0 } : State).coldStart with pins := { s.coldPins with cfgCs := !s.pins.resetLow } }

/-- RESET_ASSERT (R193): whatever the node did is abandoned. -/
def execResetAssert (s : State) : Host.Outcome State Fault Refusal :=
  .next (if s.pins.resetLow then s else s.coldStart.setReset true)

/-- RESET_RELEASE (R193). -/
def execResetRelease (s : State) : Host.Outcome State Fault Refusal :=
  .next (if s.pins.resetLow then s.coldStart.setReset false else s)

/-! ## LISTEN (R192, R194, R180) -/

/-- AUTHORITY OFF for every configured platform (R186). R186 and R194 give no order among the platforms: by platform
index, lowest first (DESIGN CHOICE, log 81). -/
def State.authoritiesOff (s : State) : State := s.platforms.foldl State.authorityOff s

/-- STATION_LINK_LOST is raised at the entry to LISTEN when the link is already LOST (R180). -/
def State.raiseLostLink (s : State) : State :=
  if s.slc.link == .lost then s.raise .stationLinkLost Loc.none else s

/-- The CFL's own part of the entry to LISTEN. The image of a console has every point none (R190): what POINT reports
gave it in LOADING, while the role was not known, is dropped as the role is known (DEDUCED, log 83). -/
def State.beginListen (s : State) : State :=
  { s with
    cfl := { s.cfl with start := .listen, listenAt := some s.runTime }
    slc := { s.slc with image := if s.isStation then s.slc.image else noPoints }
    pins := { s.pins with cfgCs := false } }

/-- The entry to LISTEN, block by block (R194). -/
def State.enterListen (s : State) : State :=
  let s1 := (s.beginListen.initWatched).startStatusPeriod
  let s2 := (s1.startFilters.authoritiesOff).requestSweep .start
  (((s2.startGates).firstBreakerReports).firstPointReports).raiseLostLink

/-- The entry to CONFIG_FAULT (R197): FAULT asserted, no constant held, nothing commanded; the field image stays. -/
def State.enterFault (s : State) : State :=
  { s with
    cfg := .blank
    cfl := { s.cfl with start := .configFault }
    slc := { s.slc with cmds := [], held := [], sweep := .idle, again := false, waitEnd := none }
    pins := { s.pins with fault := true, cfgCs := false } }

/-- IMAGE_CHECKED (R192): the bytes the configuration memory gave. -/
def execImageChecked (image : Bytes) (s : State) : Host.Outcome State Fault Refusal :=
  onEvent s (s.cfl.start == .loading) (fun s =>
    match parseImage image with
    | some c => ({ s with cfg := c } : State).enterListen
    | none => s.enterFault)

/-! ## REBUILD and RUNNING (R194, R195, R64) -/

/-- 20 ds of running time have passed from the entry to LISTEN. -/
def State.listenOver (s : State) : Bool :=
  s.cfl.start == .listen && match s.cfl.listenAt with | some t => s.reached (t + 20) | none => false

/-- The entry to REBUILD (R195). -/
def State.enterRebuild (s : State) : State :=
  (({ s with cfl := { s.cfl with start := .rebuild } } : State).sendAllOwn).startRebuild

/-- LISTEN_END (R194). -/
def execListenEnd (s : State) : Host.Outcome State Fault Refusal := onEvent s s.listenOver State.enterRebuild

/-- REBUILD_TIMER_EXPIRY (R64). -/
def execRebuildTimerExpiry (s : State) : Host.Outcome State Fault Refusal :=
  onEvent s (s.cfl.start == .rebuild && s.expiredOpt s.hoe.rebuildTimer) State.rebuildExpires

/-! ## Warm starts (R196) -/

/-- RESTART_NODE, the directive (R196, R189). -/
def execRestartNode (s : State) : Host.Outcome State Fault Refusal :=
  onDirectiveKind s (fun d => match d with | .restartNode => true | _ => false)

/-- What a warm start keeps: constants, launch list or plan buffer, serial counter, a VALID clock, the divider, the
line's last bit, and the levels the surroundings drive (R196, R160). -/
def State.warmState (s : State) : State :=
  { State.reset with
    cfg := s.cfg
    ttu := { Ttu.cold with launch := s.ttu.launch }
    inu := { Inu.cold with serial := s.inu.serial }
    tiu := { Tiu.cold with clock := s.tiu.clock, overrun := s.tiu.overrun }
    lbc := { Lbc.cold with lastBit := s.lbc.lastBit }
    pins := s.coldPins
    refMoment := s.refMoment
    pending := s.pending }

/-- WARM_START (R196): taken when the ANSWER of a RESTART_NODE has gone. -/
def execWarmStart (s : State) : Host.Outcome State Fault Refusal :=
  onEvent s (s.cfl.restart == .ready) (fun s => s.warmState.enterListen)

end Sys2Proof.Machine
end

