-- ==== Sys2Proof/Machine/Track.lean ====
section
/-! DEFINITION. Events of the track inputs (10.1): level changes, first levels, accepted edges. -/

namespace Sys2Proof.Machine

open Sys2Proof

/-- The candidate of input i that is accepted at a cycle, with the moment; `first` says whether as a first level. -/
def State.accepts (s : State) (i cycle : Nat) (first : Bool) : Option (Nat × Candidate) :=
  match s.momentAt cycle with
  | some m => (s.acceptable i m first).map (fun c => (m, c))
  | none => none

/-- The candidate is accepted at its moment. -/
def State.accept (s : State) (i : Nat) (x : Nat × Candidate) : State :=
  ({ s with refMoment := x.1 } : State).acceptLevel i x.2

/-- An accepted edge of input i: `f` takes the platform and the candidate's stamp when the input's use is the one
wanted. -/
def onEdge (s : State) (i cycle : Nat) (active : Bool) (use : TrackUse → Option Nat)
    (f : Nat → Option Nat → State → State) : Host.Outcome State Fault Refusal :=
  match s.accepts i cycle false, use (s.trackCfg i).use with
  | some x, some p => onEvent s (x.2.active == active) (fun s => f p x.2.stamp (s.accept i x))
  | _, _ => onEvent s false id

/-- The platform of a BERTH input. -/
def berthOf : TrackUse → Option Nat
  | .berth p => some p
  | .brake _ | .unused => none

/-- The platform of a BRAKE input. -/
def brakeOf : TrackUse → Option Nat
  | .brake p => some p
  | .berth _ | .unused => none

/-- TRACK_INPUT_CHANGE (R178): the pin's level is followed in every state. -/
def execTrackInputChange (input cycle : Nat) (high : Bool) (s : State) : Host.Outcome State Fault Refusal :=
  .next (s.atCycle cycle (fun _ => decide (input < 8) && s.pins.trk.getD input false != high)
    (fun m s => s.pinChange input m high))

/-- FIRST_LEVEL (R179): a BERTH input's first level goes to the TTU, a BRAKE input's is kept. -/
def execFirstLevel (input cycle : Nat) (s : State) : Host.Outcome State Fault Refusal :=
  match s.accepts input cycle true with
  | some x =>
    onEvent s true (fun s =>
      let s1 := s.accept input x
      match berthOf (s.trackCfg input).use with
      | some p => s1.firstBerthLevel p x.2.active x.2.stamp
      | none => s1)
  | none => onEvent s false id

/-- BERTH_RISE (R9, R10). -/
def execBerthRise (input cycle : Nat) (s : State) : Host.Outcome State Fault Refusal :=
  onEdge s input cycle true berthOf (fun p t s => s.riseAt p t)

/-- BRAKE_POINT_RISE (R13). -/
def execBrakePointRise (input cycle : Nat) (s : State) : Host.Outcome State Fault Refusal :=
  onEdge s input cycle true brakeOf (fun p t s => s.brakeAt p t)

/-- BERTH_FALL (R9, R14). -/
def execBerthFall (input cycle : Nat) (s : State) : Host.Outcome State Fault Refusal :=
  onEdge s input cycle false berthOf (fun p t s => s.fallAt p t)

/-- BRAKE_POINT_FALL (R179): the level is accepted and the edge discarded. -/
def execBrakePointFall (input cycle : Nat) (s : State) : Host.Outcome State Fault Refusal :=
  onEdge s input cycle false brakeOf (fun _ _ s => s)

end Sys2Proof.Machine
end

