-- ==== Sys2Proof/Machine/Dispatch.lean ====
section
/-! DEFINITION. The commands' meanings, one arm per constructor of Instr. -/

namespace Sys2Proof.Machine

/-- The effect of a command on everything but the queue of commands. -/
def exec (i : Instr) (s : State) : Host.Outcome State Fault Refusal :=
  match i with
  | .powerOn => Sys2Proof.Machine.execPowerOn s
  | .resetAssert => Sys2Proof.Machine.execResetAssert s
  | .resetRelease => Sys2Proof.Machine.execResetRelease s
  | .imageChecked image => Sys2Proof.Machine.execImageChecked image s
  | .listenEnd => Sys2Proof.Machine.execListenEnd s
  | .rebuildTimerExpiry => Sys2Proof.Machine.execRebuildTimerExpiry s
  | .restartNode => Sys2Proof.Machine.execRestartNode s
  | .warmStart => Sys2Proof.Machine.execWarmStart s
  | .tick => Sys2Proof.Machine.execTick s
  | .clockTrim => Sys2Proof.Machine.execClockTrim s
  | .statusPeriod => Sys2Proof.Machine.execStatusPeriod s
  | .trackInputChange input cycle high => Sys2Proof.Machine.execTrackInputChange input cycle high s
  | .firstLevel input cycle => Sys2Proof.Machine.execFirstLevel input cycle s
  | .berthRise input cycle => Sys2Proof.Machine.execBerthRise input cycle s
  | .brakePointRise input cycle => Sys2Proof.Machine.execBrakePointRise input cycle s
  | .berthFall input cycle => Sys2Proof.Machine.execBerthFall input cycle s
  | .dwellMark platform => Sys2Proof.Machine.execDwellMark platform s
  | .dwellExpiry platform => Sys2Proof.Machine.execDwellExpiry platform s
  | .authWaitExpiry platform => Sys2Proof.Machine.execAuthWaitExpiry platform s
  | .cueWaitExpiry platform => Sys2Proof.Machine.execCueWaitExpiry platform s
  | .powerWaitExpiry platform => Sys2Proof.Machine.execPowerWaitExpiry platform s
  | .handoverRetryExpiry tag => Sys2Proof.Machine.execHandoverRetryExpiry tag s
  | .orphanRetryExpiry tag => Sys2Proof.Machine.execOrphanRetryExpiry tag s
  | .handover => Sys2Proof.Machine.execHandover s
  | .takeover => Sys2Proof.Machine.execTakeover s
  | .refusal => Sys2Proof.Machine.execRefusal s
  | .stallWatchExpiry tag => Sys2Proof.Machine.execStallWatchExpiry tag s
  | .renewAsk => Sys2Proof.Machine.execRenewAsk s
  | .renewReply => Sys2Proof.Machine.execRenewReply s
  | .gateCompletion record edges => Sys2Proof.Machine.execGateCompletion record edges s
  | .recloseDelayExpiry record => Sys2Proof.Machine.execRecloseDelayExpiry record s
  | .closeAllowanceExpiry record => Sys2Proof.Machine.execCloseAllowanceExpiry record s
  | .isolateSection => Sys2Proof.Machine.execIsolateSection s
  | .restoreSection => Sys2Proof.Machine.execRestoreSection s
  | .countedStartExpiry record => Sys2Proof.Machine.execCountedStartExpiry record s
  | .retryWaitEnd platform => Sys2Proof.Machine.execRetryWaitEnd platform s
  | .askWaitEnd platform => Sys2Proof.Machine.execAskWaitEnd platform s
  | .powerAsk => Sys2Proof.Machine.execPowerAsk s
  | .queuedAskRefreshExpiry record => Sys2Proof.Machine.execQueuedAskRefreshExpiry record s
  | .powerReturn => Sys2Proof.Machine.execPowerReturn s
  | .powerGrant => Sys2Proof.Machine.execPowerGrant s
  | .powerDefer => Sys2Proof.Machine.execPowerDefer s
  | .takenStartExpiry record => Sys2Proof.Machine.execTakenStartExpiry record s
  | .ackIncident => Sys2Proof.Machine.execAckIncident s
  | .clearIncident => Sys2Proof.Machine.execClearIncident s
  | .declareIncident => Sys2Proof.Machine.execDeclareIncident s
  | .clearOverflow => Sys2Proof.Machine.execClearOverflow s
  | .clearedLingerEnd origin serial => Sys2Proof.Machine.execClearedLingerEnd origin serial s
  | .escalationExpiry serial => Sys2Proof.Machine.execEscalationExpiry serial s
  | .incident => Sys2Proof.Machine.execIncident s
  | .peerAgeing origin serial => Sys2Proof.Machine.execPeerAgeing origin serial s
  | .incidentRefresh serial => Sys2Proof.Machine.execIncidentRefresh serial s
  | .announce => Sys2Proof.Machine.execAnnounce s
  | .cancelAnnounce => Sys2Proof.Machine.execCancelAnnounce s
  | .wakeTimerExpiry => Sys2Proof.Machine.execWakeTimerExpiry s
  | .readyRise => Sys2Proof.Machine.execReadyRise s
  | .readyFall => Sys2Proof.Machine.execReadyFall s
  | .playerTimerExpiry => Sys2Proof.Machine.execPlayerTimerExpiry s
  | .transmitStart cycle quiet echoed => Sys2Proof.Machine.execTransmitStart cycle quiet echoed s
  | .telegramSent cycle => Sys2Proof.Machine.execTelegramSent cycle s
  | .collision cycle => Sys2Proof.Machine.execCollision cycle s
  | .echoFault cycle => Sys2Proof.Machine.execEchoFault cycle s
  | .lineBusFaultQuietEnd => Sys2Proof.Machine.execLineBusFaultQuietEnd s
  | .telegramReceived cycle bytes => Sys2Proof.Machine.execTelegramReceived cycle bytes s
  | .status => Sys2Proof.Machine.execStatus s
  | .neighbourAbsent node => Sys2Proof.Machine.execNeighbourAbsent node s
  | .planOpen => Sys2Proof.Machine.execPlanOpen s
  | .planBlock => Sys2Proof.Machine.execPlanBlock s
  | .planClose => Sys2Proof.Machine.execPlanClose s
  | .planTimerExpiry => Sys2Proof.Machine.execPlanTimerExpiry s
  | .answer => Sys2Proof.Machine.execAnswer s
  | .validFrame bytes => Sys2Proof.Machine.execValidFrame bytes s
  | .point => Sys2Proof.Machine.execPoint s
  | .sweepBegin => Sys2Proof.Machine.execSweepBegin s
  | .sweepEnd => Sys2Proof.Machine.execSweepEnd s
  | .sweepWaitEnd => Sys2Proof.Machine.execSweepWaitEnd s
  | .stationLinkSilence => Sys2Proof.Machine.execStationLinkSilence s
  | .stationLinkBreak => Sys2Proof.Machine.execStationLinkBreak s
  | .commandFrameSent => Sys2Proof.Machine.execCommandFrameSent s
  | .workstationDirective => Sys2Proof.Machine.execWorkstationDirective s
  | .planClear => Sys2Proof.Machine.execPlanClear s
  | .planEntry => Sys2Proof.Machine.execPlanEntry s
  | .planSend => Sys2Proof.Machine.execPlanSend s
  | .unknownDirective => Sys2Proof.Machine.execUnknownDirective s
  | .holdTrain => Sys2Proof.Machine.execHoldTrain s
  | .releaseTrain => Sys2Proof.Machine.execReleaseTrain s
  | .withdrawRun => Sys2Proof.Machine.execWithdrawRun s
  | .insertRun => Sys2Proof.Machine.execInsertRun s
  | .setMode => Sys2Proof.Machine.execSetMode s
  | .fieldQuery => Sys2Proof.Machine.execFieldQuery s
  | .dayStart => Sys2Proof.Machine.execDayStart s
  | .fragment cycle bytes => Sys2Proof.Machine.execFragment cycle bytes s
  | .brakePointFall input cycle => Sys2Proof.Machine.execBrakePointFall input cycle s

end Sys2Proof.Machine
end

