-- ==== Sys2Proof/Safety.lean ====
section
/-! DEFINITION. What the statements say about states: at rest between events, within the sizes the manual gives, and
the occasions of the events. -/

namespace Sys2Proof.Machine

open Sys2Proof

/-- Between two events no request is left to take and no INCIDENT is left to send (logs 9, 10). -/
abbrev State.Quiet (s : State) : Prop := s.work = [] ∧ s.inu.dirty = []

/-- An event may be taken: RESET is not held low, and the event before has ended. -/
abbrev State.Ready (s : State) : Prop := s.pins.resetLow = false ∧ s.Quiet

/-- The queues that the outside fills are within their places (R169, R182, R178), and the running time within its range
(4.5). -/
abbrev State.InputsFit (s : State) : Prop :=
  s.lbc.rx.length ≤ rxRoom ∧ s.slc.reports.length ≤ reportRoom ∧ s.pins.trk.length = 8 ∧ s.runTime ≤ runTimeMax

/-- The field image of a node in CONSOLE role has no value at any point (R190). -/
abbrev State.ConsoleSeesNoPoint (s : State) : Prop := s.cfg.role = .console → ∀ v ∈ s.slc.image, v.value = none

/-- The lists that fill within an event are within their places: 512 entries in the launch list and in the staging list
(R15, R17), 8 trains in the sent and received histories of each direction (R49), 16 phrases in the player FIFO (R139),
the times of 3 attempt drops (R165), and 2 reclose attempts of each section (Table 4-1). -/
abbrev State.StoresFit (s : State) : Prop :=
  s.ttu.launch.length ≤ launchRoom ∧ s.ttu.staging.length ≤ launchRoom ∧
    (s.hoe.up.sent.length ≤ historyRoom ∧ s.hoe.up.received.length ≤ historyRoom) ∧
    (s.hoe.down.sent.length ≤ historyRoom ∧ s.hoe.down.received.length ≤ historyRoom) ∧
    s.anu.fifo.length ≤ fifoRoom ∧ s.lbc.dropTimes.length ≤ dropRoom ∧
    ∀ d ∈ s.secs, d.attempts.length ≤ attemptRoom

/-- Every list is within the places that the manual gives it: 16 train records (R1), 32 incident entries (R121),
transmit queues of 8, 16 and 4 telegrams (Table 9-1), 32 field commands (R185), 8 announcement requests and 3 suspended
ones (R133, R140), 24 timing channels and 16 coarse places (R149, R154); no section has a limit above 3 (Table 4-1), and
each has at most 3 counted and 3 taken starts and 6 queued asks (5.1); and the lists of `StoresFit`. -/
abbrev State.PlacesFit (s : State) : Prop :=
  s.ttu.table.length ≤ tableRoom ∧ s.inu.table.length ≤ incidentRoom ∧
    s.lbc.alertQ.length ≤ TelegramClass.alert.room ∧ s.lbc.controlQ.length ≤ TelegramClass.control.room ∧
    s.lbc.bulkQ.length ≤ TelegramClass.bulk.room ∧ s.slc.cmds.length ≤ cmdRoom ∧ s.anu.queue.length ≤ annRoom ∧
    s.anu.stack.length ≤ stackRoom ∧ s.tiu.chans.length = 24 ∧ s.tiu.coarse.length = 16 ∧
    (∀ c ∈ s.cfg.sections, c.limit ≤ 3) ∧
    (∀ a ∈ s.sar.arbs, a.counted.length ≤ 3 ∧ a.taken.length ≤ takenRoom ∧ a.queue.length ≤ askRoom) ∧ s.StoresFit

/-- The operating level is the one its definition gives (R126), the incident table names each entry once, its own
entries with this node's number, and nothing is received or raised before an image is loaded. -/
abbrev State.LevelFits (s : State) : Prop :=
  s.inu.level = s.levelNow ∧ s.inu.table.length ≤ incidentRoom ∧ (s.inu.table.map (·.id)).Nodup ∧
    (∀ e ∈ s.inu.table, e.own = true ↔ e.id.node = s.cfg.node) ∧
    (s.cfl.start = .loading → s.inu.table = [] ∧ s.lbc.rx = [])

/-- The telegram at the head of the receive queue, those behind it, and that this node takes it (R168). -/
abbrev State.HeadIs (s : State) (t : Telegram) (ts : List Received) : Prop :=
  s.lbc.rx.head?.map (·.tg) = some t ∧ s.lbc.rx.tail = ts ∧ (t.target = 0 ∨ t.target = s.cfg.node)

/-- A DIRECTIVE with a serial heads the receive queue of a station node in RUNNING; its sender stands at index i of the
authority table with a level that suffices, no answer with that serial is stored, and no severity or priority of 0 is
given (R189 steps 1 to 5). -/
def State.Ordered (s : State) (sender serial i : Nat) (d : Directive) (ts : List Received) : Prop :=
  s.Ready ∧ s.cfg.role = .station ∧ s.cfl.start = .running ∧
    s.HeadIs { sender := sender, target := s.cfg.node, body := .directive serial d } ts ∧
    s.consoleIndex sender = some i ∧ s.storedAnswer i serial = none ∧
    (∃ c, s.cfg.consoles[i]? = some c ∧ d.level ≤ c.level) ∧ d.zeroGiven = false

/-- An ask that a step from s to t may find in the start queue of section record k: one queued in s; the POWER_ASK at the
head of the receive queue; the ask that an asker record holds in s; or a start ask made in the step, with the present time
as ready time, the demand of a class, and no credit or the configured one (R34, R90, R96). It is an override ask when it
was one there, or becomes one by the POWER_ASK's flag or at its platform's POWER_WAIT_EXPIRY (R97, R102). -/
def State.MayAsk (s t : State) (k : Nat) (a : QueuedAsk) : Prop :=
  let told := fun (b : PowerAskBody) => ∃ (r : Received) (ts : List Received), s.lbc.rx = r :: ts ∧
    r.tg.sender = a.node ∧ r.tg.body = .powerAsk b ∧ t.secIndex b.sec = some k ∧ b.platform = a.platform ∧
    b.serial = a.serial
  let overridden := (∃ b, told b ∧ b.overrideFlag = true) ∨
    (a.node = t.cfg.node ∧ s.pending.head? = some (.powerWaitExpiry a.platform))
  let becomes := fun (b : QueuedAsk) => b.node = a.node ∧ b.platform = a.platform ∧ b.serial = a.serial ∧
    b.ready = a.ready ∧ b.demand = a.demand ∧ b.credit = a.credit ∧
    (a.overrideFlag = true → b.overrideFlag = true ∨ overridden)
  (∃ b ∈ (s.arb k).queue, becomes b) ∨
  (∃ b, told b ∧ b.ready = a.ready ∧ b.demand = a.demand ∧ b.credit = a.credit ∧
    (a.overrideFlag = true → b.overrideFlag = true)) ∨
  (a.node = t.cfg.node ∧ becomes ((s.asker a.platform).queued t.cfg.node a.platform)) ∨
  (a.node = t.cfg.node ∧ a.ready = t.tiu.clock ∧ (∃ q, a.demand = t.cfg.demand q) ∧
    (a.credit = 0 ∨ a.credit = t.cfg.rc) ∧ (a.overrideFlag = true → overridden))

/-- The receive queue with its head taken. -/
def State.withRx (s : State) (ts : List Received) : State := { s with lbc := { s.lbc with rx := ts } }

/-- The effect of a directive with its result answered: the answer is stored in the sender's last-answer record and sent
(R189). -/
def State.answered (s : State) (i sender serial : Nat) (d : Directive) (r : AnswerResult) : State :=
  let b : AnswerBody := { code := d.code, serial := serial, result := r, points := none }
  ({ s with dck := { s.dck with lastAnswers := s.dck.lastAnswers.set i (some b) } } : State).sendAnswer sender b

/-- The command that takes a DIRECTIVE from the head of the receive queue, by its kind. -/
def Directive.command : Directive → Instr
  | .ackIncident _ => .ackIncident
  | .holdTrain .. => .holdTrain
  | .releaseTrain .. => .releaseTrain
  | .announce _ => .announce
  | .cancelAnnounce .. => .cancelAnnounce
  | .declareIncident _ => .declareIncident
  | .fieldQuery => .fieldQuery
  | .clearIncident _ => .clearIncident
  | .withdrawRun .. => .withdrawRun
  | .insertRun _ => .insertRun
  | .setMode .. => .setMode
  | .isolateSection _ => .isolateSection
  | .restoreSection _ => .restoreSection
  | .clearOverflow => .clearOverflow
  | .dayStart _ => .dayStart
  | .restartNode => .restartNode
  | .unknown .. => .unknownDirective

/-- An accepted edge of input i at moment m: the candidate's level is the accepted level, and the candidate is gone. -/
def State.levelAccepted (s : State) (i m : Nat) (c : Candidate) : State :=
  { s with
    refMoment := m
    slc := { s.slc with tracks := s.slc.tracks.modify i (fun t =>
      { t with accepted := some c.active, candidate := none, firstMark := false }) } }

/-! ## What a telegram can hold (12.2) -/

/-- An optional value has a property when it is there. -/
def optAll {α : Type} (x : Option α) (p : α → Prop) : Prop := ∀ y, x = some y → p y

/-- An incident id as a telegram can hold it. -/
def IncId.fits (i : IncId) : Prop := i.node ≤ 32 ∧ i.serial ≤ 4095

/-- A location; `greatest` is the greatest platform. -/
def Loc.fits (l : Loc) (greatest : Nat) : Prop :=
  optAll l.platform (· ≤ greatest) ∧ optAll l.sec (· ≤ 255) ∧ optAll l.run (· ≤ 999) ∧ optAll l.point (· ≤ 63)

/-- A cover. -/
def Span.fits (x : Span) : Prop := x.fromEnd ≤ 65535 ∧ x.toEnd ≤ 65535

/-- A record as a HANDOVER carries it, with its sequence. -/
def SentEntry.fits (e : SentEntry) : Prop :=
  e.carried.run ≤ 999 ∧ e.carried.origin ≤ serviceMax ∧ e.carried.dest ≤ 31 ∧ e.carried.pclass ≤ 3 ∧
    optAll e.carried.lateness (fun x => -999 ≤ x ∧ x ≤ 999) ∧ e.seq ≤ 255 ∧ optAll e.carried.incRef IncId.fits

/-- A plan entry. -/
def PlanEntry.fits (e : PlanEntry) : Prop :=
  e.run ≤ 999 ∧ e.platform ≤ 255 ∧ e.departure ≤ serviceMax ∧ e.dest ≤ 31 ∧ e.pclass ≤ 3

/-- One direction of a STATUS. -/
def StatusDir.fits (d : StatusDir) : Prop :=
  optAll d.lastSend (· ≤ 255) ∧ optAll d.lastExpected (· ≤ 255) ∧
    optAll d.prediction (fun p => p.run ≤ 999 ∧ p.origin ≤ serviceMax ∧ p.departure ≤ serviceMax)

/-- A STATUS. -/
def StatusBody.fits (b : StatusBody) : Prop :=
  b.level ≤ 7 ∧ optAll b.clock (· ≤ serviceMax) ∧ b.up.fits ∧ b.down.fits ∧ b.drops ≤ 65535 ∧ b.discards ≤ 65535 ∧
    b.overruns ≤ 65535 ∧ b.annDropped ≤ 65535 ∧ b.muted ≤ 65535 ∧ b.sections.length ≤ 4 ∧
    ∀ e ∈ b.sections, e.id ≤ 255 ∧ optAll e.im (· ≤ 16000)

/-- A directive. -/
def Directive.fits : Directive → Prop
  | .ackIncident i | .clearIncident i => i.fits
  | .holdTrain r p | .releaseTrain r p | .withdrawRun r p => r ≤ 999 ∧ optAll p (· ≤ 255)
  | .announce a =>
    a.template ≤ 255 ∧ a.priority ≤ 255 ∧ a.slots.length = 4 ∧ (∀ v ∈ a.slots, v ≤ 9999) ∧ a.repeatCount ≤ 255 ∧
      a.interval ≤ 65535
  | .cancelAnnounce t slots _ => t ≤ 255 ∧ slots.length = 4 ∧ ∀ v ∈ slots, v ≤ 9999
  | .declareIncident d => d.severity ≤ 255 ∧ d.loc.fits 255 ∧ optAll d.cover Span.fits
  | .fieldQuery | .clearOverflow | .restartNode => True
  | .insertRun a =>
    a.run ≤ 999 ∧ a.origin ≤ serviceMax ∧ a.dest ≤ 31 ∧ a.pclass ≤ 3 ∧ optAll a.platform (· ≤ 255)
  | .setMode m p => m ≤ 255 ∧ optAll p (· ≤ 255)
  | .isolateSection i | .restoreSection i => i ≤ 255
  | .dayStart t => t ≤ 9999999
  | .unknown c ps => (c = 0 ∨ 17 ≤ c) ∧ c ≤ 255 ∧ ps.length ≤ 118

/-- A telegram's body. -/
def Body.fits : Body → Prop
  | .incident b =>
    b.id.fits ∧ b.severity ≤ 7 ∧ b.loc.fits 3 ∧ optAll b.cover Span.fits ∧ optAll b.raised (· ≤ serviceMax) ∧
      optAll b.ackBy (· ≤ 32)
  | .powerAsk b =>
    b.sec ≤ 255 ∧ b.platform ≤ 3 ∧ b.serial ≤ 255 ∧ optAll b.ready (· ≤ serviceMax) ∧ b.demand ≤ 8000 ∧ b.credit ≤ 4000
  | .powerGrant k p n | .powerReturn k p n | .powerDefer k p n _ => k ≤ 255 ∧ p ≤ 3 ∧ n ≤ 255
  | .status b => b.fits
  | .handover e => e.fits
  | .takeover r _ q | .refusal r _ q _ => r ≤ 999 ∧ q ≤ 255
  | .renewAsk _ => True
  | .renewReply d c (.sent es) =>
    optAll c (· ≤ 255) ∧ es.length ≤ 8 ∧ ∀ e ∈ es, e.carried.dir = d ∧ e.fits
  | .renewReply _ c (.received es) => optAll c (· ≤ 255) ∧ es.length ≤ 8 ∧ ∀ e ∈ es, e.run ≤ 999 ∧ e.seq ≤ 255
  | .directive n d => n ≤ 255 ∧ d.fits
  | .answer b =>
    b.code ≤ 255 ∧ b.serial ≤ 255 ∧
      (if b.code = 7 ∧ b.result = .done then
        ∃ ps, b.points = some ps ∧ ps.length = 64 ∧ ∀ v ∈ ps, optAll v.value (· ≤ 15)
      else b.points = none)
  | .planOpen i n r => i ≤ 255 ∧ n ≤ 255 ∧ r ≤ 255
  | .planClose i n => i ≤ 255 ∧ n ≤ 65535
  | .planBlock i n es => i ≤ 255 ∧ n ≤ 255 ∧ es.length ≤ 8 ∧ ∀ e ∈ es, e.fits

/-- A telegram that this node or another can send: nodes 1 to 32, a broadcast kind to all, every other kind to one node.
-/
def Telegram.fits (t : Telegram) : Prop :=
  1 ≤ t.sender ∧ t.sender ≤ 32 ∧ t.target ≤ 32 ∧ (t.body.broadcast = true ↔ t.target = 0) ∧ t.body.fits

/-- What the requests that blocks make of each other leave as it is; only the completion of a rebuild moves the start
state. -/
structure Outside where
  start : StartState
  listenAt : Option Nat
  pending : List Instr
  cfg : NodeConfig
  runTime : Nat
  refMoment : Nat
  dck : Dck
  rx : List Received
  reports : List Report
  tracks : List TrackDyn
  filtersOn : Bool
  image : List PointVal
  clock : Option Nat
  resetLow : Bool
  ready : Bool
  trk : List Bool
  deriving DecidableEq, Repr

/-- That part of a state. -/
def State.outside (s : State) : Outside :=
  { start := s.cfl.start, listenAt := s.cfl.listenAt, pending := s.pending, cfg := s.cfg, runTime := s.runTime,
    refMoment := s.refMoment, dck := s.dck, rx := s.lbc.rx, reports := s.slc.reports, tracks := s.slc.tracks,
    filtersOn := s.slc.filtersOn, image := s.slc.image, clock := s.tiu.clock, resetLow := s.pins.resetLow,
    ready := s.pins.ready, trk := s.pins.trk }

end Sys2Proof.Machine
end

