-- ==== Sys2Proof/Certificates/Slice0/Obligations.lean ====
section
/-! DEFINITION. The statements for the provers: what the commands of the spec's table do, what every command leaves, and
the invariants that every step keeps. Where a command's effect asks other blocks for something, the answer is `finish
u`: u is the effect, and `finish` takes the requests and sends the INCIDENTs due (logs 9, 10); `finish u` is u where u
is at rest. -/

open Sys2Proof Sys2Proof.Machine

/-! ## The queue of commands -/

/-- A step takes the command at the front of the queue, and runs it on the state with the rest of the queue. Commands as
events are the model's reading (log 1). With no command waiting the part idles: the model's choice (log 2). -/
def Obligations.StepTakesTheFront : Prop :=
  (∀ (c : Instr) (rest : List Instr) (s : State),
     s.pending = c :: rest → step s = exec c { s with pending := rest }) ∧
  ∀ s : State, s.pending = [] → step s = .next s

/-- Every step keeps these lists within the places the manual gives them: train table, launch and staging lists, sent and
received histories, incident table, transmit queues, command FIFO, announcement queue, suspension stack and player FIFO,
timing channels and coarse places, the times of attempt drops, and each section's counted starts, taken starts, queued
asks and reclose attempts. -/
def Obligations.StepKeepsPlaces : Prop := ∀ s t : State, s.PlacesFit → step s = .next t → t.PlacesFit

/-- No command stops the part: each answers a next state. An event whose occasion does not hold changes nothing, the
model's choice (log 1). -/
def Obligations.EveryCommandAnswersNext : Prop := ∀ (c : Instr) (s : State), ∃ t, exec c s = .next t

/-! ## What every command and every step keeps -/

/-- What no command but those named changes: the queue of commands; the constants; the running time; the service
clock; the field image, which IMAGE_CHECKED empties at a console; the report FIFO; the receive queue, to whose tail
TELEGRAM_RECEIVED adds one telegram, and from whose head the commands that take a telegram take one; the track
filters; the start state outside REBUILD. -/
def Obligations.CommandsLeaveTheRest : Prop :=
  ∀ (c : Instr) (s t : State), exec c s = .next t →
    t.pending = s.pending ∧
    (match c with
      | .powerOn | .resetAssert | .resetRelease | .imageChecked _ => True
      | _ => t.cfg = s.cfg) ∧
    (match c with
      | .powerOn | .resetAssert | .resetRelease | .warmStart | .tick => True
      | _ => t.runTime = s.runTime) ∧
    (match c with
      | .powerOn | .resetAssert | .resetRelease | .tick | .clockTrim | .status | .dayStart | .workstationDirective => True
      | _ => t.tiu.clock = s.tiu.clock) ∧
    (match c with
      | .powerOn | .resetAssert | .resetRelease | .warmStart | .point | .stationLinkSilence | .stationLinkBreak => True
      | .imageChecked _ => t.slc.image = s.slc.image ∨ t.cfg.role = .console ∧ t.slc.image = noPoints
      | _ => t.slc.image = s.slc.image) ∧
    (match c with
      | .powerOn | .resetAssert | .resetRelease | .warmStart | .validFrame _ | .point | .sweepBegin | .sweepEnd
      | .workstationDirective | .planClear | .planEntry | .planSend => True
      | _ => t.slc.reports = s.slc.reports) ∧
    (match c with
      | .powerOn | .resetAssert | .resetRelease | .imageChecked _ | .warmStart | .trackInputChange .. | .firstLevel ..
      | .berthRise .. | .berthFall .. | .brakePointRise .. | .brakePointFall .. => True
      | _ => t.slc.tracks = s.slc.tracks) ∧
    (match c with
      | .powerOn | .resetAssert | .resetRelease | .imageChecked _ | .listenEnd | .warmStart => True
      | _ => s.cfl.start ≠ .rebuild → t.cfl.start = s.cfl.start) ∧
    (match c with
      | .powerOn | .resetAssert | .resetRelease | .warmStart => True
      | .telegramReceived .. => t.lbc.rx = s.lbc.rx ∨ ∃ r : Received, t.lbc.rx = s.lbc.rx ++ [r]
      | .status | .answer | .handover | .takeover | .refusal | .renewAsk | .renewReply | .powerAsk | .powerReturn
      | .powerGrant | .powerDefer | .incident | .planOpen | .planBlock | .planClose | .ackIncident | .clearIncident
      | .declareIncident | .clearOverflow | .announce | .cancelAnnounce | .isolateSection | .restoreSection | .holdTrain
      | .releaseTrain | .withdrawRun | .insertRun | .setMode | .fieldQuery | .dayStart | .restartNode
      | .unknownDirective => t.lbc.rx = s.lbc.rx ∨ t.lbc.rx = s.lbc.rx.drop 1
      | _ => t.lbc.rx = s.lbc.rx)

/-- Right after reset nothing is left to take, the lists that StepKeepsPlaces names are within their places, the
receive and report queues too, the running time is within its range, the operating level is the one its definition
gives, and no console's field image has a point. -/
def Obligations.ResetIsAtRest : Prop :=
  State.reset.Quiet ∧ State.reset.InputsFit ∧ State.reset.PlacesFit ∧ State.reset.LevelFits ∧
    State.reset.ConsoleSeesNoPoint

/-- A step from rest ends at rest: no event leaves a request between blocks, or an INCIDENT due, behind (logs 9, 10). -/
def Obligations.StepKeepsRest : Prop := ∀ s t : State, s.Quiet → step s = .next t → t.Quiet

/-- Every step keeps the receive queue within 24 telegrams, the report FIFO within 32 reports, the eight track pins,
and the running time within its range. Every step keeps every point of the field image of a node in CONSOLE role none
(R190); that it becomes none with the image that gives the role is log 83. -/
def Obligations.StepKeepsInputsFit : Prop :=
  (∀ s t : State, s.InputsFit → step s = .next t → t.InputsFit) ∧
  ∀ s t : State, s.ConsoleSeesNoPoint → step s = .next t → t.ConsoleSeesNoPoint

/-- Every step from rest keeps the operating level equal to its definition: the greatest of the overflow floor and the
severities of the entries that act at this node, and at a console the floor alone (R126). With it each incident stands
once in the table, as an own entry just when it carries this node's number. -/
def Obligations.LevelFollowsItsDefinition : Prop :=
  (∀ s t : State, s.Quiet → s.LevelFits → step s = .next t → t.LevelFits) ∧
  (∀ s : State, s.cfg.role = .console → s.levelNow = s.inu.floor) ∧
  (∀ s : State, s.inu.floor ≤ s.levelNow ∧ (∀ e ∈ s.inu.table, s.bearsOnLevel e = true → e.severity ≤ s.levelNow) ∧
    (s.levelNow = s.inu.floor ∨ ∃ e ∈ s.inu.table, s.bearsOnLevel e = true ∧ e.severity = s.levelNow))

/-! ## Starts (R192 to R197) -/

/-- POWER_ON, RESET_ASSERT and RESET_RELEASE: a cold start at the beginning of LOADING, every block cold, the pins the
surroundings drive as they stand (log 4). The divider runs from 0 at POWER_ON and does not restart at a RESET. While
RESET is held low a command changes nothing, but for power, the pins and the tick of the divider: what is taken then is
the model's choice where R193 is silent (log 1). -/
def Obligations.ColdStartsBeginLoading : Prop :=
  (∀ s : State, exec .powerOn s = .next { State.reset with
     pins := { Pins.cold with
       resetLow := s.pins.resetLow, ready := s.pins.ready, trk := s.pins.trk, cfgCs := !s.pins.resetLow }
     pending := s.pending }) ∧
  ((∀ s : State, s.pins.resetLow = false → exec .resetAssert s = .next { State.reset with
     pins := { Pins.cold with resetLow := true, ready := s.pins.ready, trk := s.pins.trk, cfgCs := false }
     refMoment := s.refMoment
     pending := s.pending }) ∧
   (∀ s : State, s.pins.resetLow = true → exec .resetRelease s = .next { State.reset with
     pins := { Pins.cold with resetLow := false, ready := s.pins.ready, trk := s.pins.trk, cfgCs := true }
     refMoment := s.refMoment
     pending := s.pending })) ∧
  (∀ (c : Instr) (s : State), s.pins.resetLow = true →
    match c with
    | .powerOn | .resetRelease | .tick | .trackInputChange .. | .readyRise | .readyFall => True
    | _ => exec c s = .next s)

/-- IMAGE_CHECKED: with an image that passes its checks the constants are taken and the node enters LISTEN at the
present running time, a console with every point of its field image none (R190); with one that fails it enters
CONFIG_FAULT, FAULT asserted, no constant held, nothing commanded. The image comes as an operand (log 37). The order
of the first reports and of the AUTHORITY OFFs, and when a console's image becomes none, are the model's choice (logs
80, 81, 83, 84). -/
def Obligations.ImageDecidesTheStart : Prop :=
  (∀ (image : Bytes) (c : NodeConfig) (s : State),
     s.Ready → s.cfl.start = .loading → parseImage image = some c →
     ∃ t, exec (.imageChecked image) s = .next t ∧ t = finish ({ s with cfg := c } : State).enterListen ∧
       t.cfg = c ∧ t.cfl.start = .listen ∧ t.cfl.listenAt = some s.runTime ∧ t.tiu.clock = s.tiu.clock ∧
       t.slc.image = if c.role = .console then List.replicate 64 { value := none, stale := true } else s.slc.image) ∧
  (∀ (image : Bytes) (s : State),
     s.Ready → s.cfl.start = .loading → parseImage image = none →
     exec (.imageChecked image) s = .next { s with
       cfg := .blank
       cfl := { s.cfl with start := .configFault }
       slc := { s.slc with cmds := [], held := [], sweep := .idle, again := false, waitEnd := none }
       pins := { s.pins with fault := true, cfgCs := false } })

/-- LISTEN_END: 20 ds of running time after the entry to LISTEN the node enters REBUILD: its own incidents are sent,
renewal is asked of the neighbours, and the rebuild timer runs; before that nothing happens. REBUILD_TIMER_EXPIRY:
sides still ASKED end UNKNOWN, the rebuild is complete, and the node enters RUNNING. The order of the incidents and of
the RENEW_ASKs is the model's choice (logs 10, 84). -/
def Obligations.ListenAndRebuildEnd : Prop :=
  ((∀ (s : State) (t0 : Nat), s.Ready → s.cfl.start = .listen → s.cfl.listenAt = some t0 → t0 + 20 ≤ s.runTime →
     exec .listenEnd s = .next (finish
       ((({ s with cfl := { s.cfl with start := .rebuild } } : State).sendAllOwn).startRebuild))) ∧
   (∀ (s : State) (t0 : Nat), s.cfl.start = .listen → s.cfl.listenAt = some t0 → s.runTime < t0 + 20 →
     exec .listenEnd s = .next s)) ∧
  (∀ s : State, s.Ready → s.cfl.start = .rebuild → s.expiredOpt s.hoe.rebuildTimer = true →
     let u : State := { s with hoe := { s.hoe with up := s.hoe.up.giveUp, down := s.hoe.down.giveUp } }
     exec .rebuildTimerExpiry s = .next (finish u.finishRebuild) ∧ (finish u.finishRebuild).cfl.start = .running)

/-- WARM_START: the constants, the launch list, the serial counter and the clock are kept, the divider runs on, and
every other block starts afresh in LISTEN, entered as after an image (logs 80, 81, 84: the model's choice). -/
def Obligations.WarmStartKeeps : Prop :=
  ∀ s : State, s.Ready → s.cfl.restart = .ready →
    let u := s.warmState.enterListen
    exec .warmStart s = .next (finish u) ∧ u.cfl.start = .listen ∧ u.cfl.restart = .idle ∧ u.cfg = s.cfg ∧
      u.ttu.launch = s.ttu.launch ∧ u.ttu.table = [] ∧ u.ttu.tagCtr = 0 ∧ u.inu.serial = s.inu.serial ∧
      u.inu.table = [] ∧ u.tiu.clock = s.tiu.clock ∧ u.tiu.overrun = s.tiu.overrun ∧ u.runTime = 0 ∧
      u.refMoment = s.refMoment

/-! ## Holds (R38 to R40) -/

/-- The departure computation: with the clock VALID and Aa present, Pd is planned, the balance point rests on the
leader's and the follower's departures, the weight on the mode and the level, and the target is Aa and the dwell
clamped to Dmin and Dp + Hmax, or the earliest braking start within Rw of it, in the same bounds; else the dwell is Dp
and there is no target. The context is active with that target, and the dwell channel is loaded with the time left and
its mark Dc before the end; with Dc or less left the mark is taken at once, after the holds (log 15); with none left
the target is reached and nothing is loaded. A load above 65,535 is the model's (log 55). At a notification the
Regulation Engine reads the hold conditions of each active context afresh. A hold that arises acts as Table 2-4 says
for the record's state, and the record is HELD, with the held cue when its target has been reached; with the withdraw
flag in the set it is SPARE and its context idle. A hold that clears makes a HELD record ASKING with a new ask when
the mark has passed, and DWELLING otherwise; a cue is stopped, and the HELD request cancelled. A set that stays empty
or stays non-empty changes nothing else. What clears with a cue is log 16, and that several contexts go by platform
index is the model's choice (log 77). -/
def Obligations.HoldsAriseAndClear : Prop :=
  (∀ s : State, handleMsg .holdRecompute s = s.platforms.foldl State.recomputeHold s) ∧
  (∀ (p : Nat) (c : PlatformCfg) (r : TrainRec) (s : State), s.tiu.clock = none ∨ r.aa = none → s.target p c r = none) ∧
  (∀ (p aa : Nat) (c : PlatformCfg) (r : TrainRec) (s : State), s.tiu.clock ≠ none → r.aa = some aa → c.dmin ≤ c.dp →
    let pd := (planAt c r).2
    let b : Option Int := match (s.plat p).aprev, (s.plat p).pdPrev, s.following c with
      | some a, some _, some (t, _) => some ((a + t) / 2)
      | some a, some q, none => some (a + (pd - q))
      | _, _, some (t, q) => some (t - (q - pd))
      | _, _, none => none
    let w : Int :=
      if b = none ∨ c.turnback = true then 16
      else if 3 ≤ s.inu.level then 0
      else match s.rge.modes.getD p .blended with
        | .timetable => 16
        | .headway => 0
        | .blended => c.wtt
    let least : Int := aa + c.dmin
    let most : Int := aa + c.dp + c.hmax
    let base : Int := aa + c.dp
    let tr := max least (min most (base + (w * (pd - base) + (16 - w) * (b.getD base - base)).tdiv 16))
    let hits := (s.brakingStarts c.onward).filter (fun t => decide (tr - c.rw ≤ t ∧ t ≤ tr + c.rw))
    (hits = [] → s.target p c r = some (tr.toNat, false)) ∧
    (∀ t ∈ hits, (∀ x ∈ hits, t ≤ x) → s.target p c r = some ((max least (min t most)).toNat, true)) ∧
    (∀ t m, s.target p c r = some (t, m) → least ≤ t ∧ t ≤ most)) ∧
  (∀ (p tag : Nat) (c : PlatformCfg) (r : TrainRec) (s : State), s.pcfg p = some c → s.recOf tag = some r →
    p < s.rge.ctxs.length →
    let u := (s.idleCtx p).updCtx p (fun y => { y with tag := some tag })
    let tr := s.target p c r
    let v := (u.updCtx p (fun y => { y with tr := tr.map (·.1) })).updRec tag (fun y => { y with
      tr := tr.map (·.1), regenMatched := if tr.map (·.2) = some true then true else y.regenMatched })
    let left : Int := match tr, s.tiu.clock with
      | some (t, _), some now => (t : Int) - now
      | _, _ => c.dp
    let w :=
      if (c.dc : Int) < left then (v.loadDwell p left.toNat (some c.dc)).updCtx p (fun y => { y with use := .toTr })
      else if 0 < left then (v.loadDwell p left.toNat none).updCtx p (fun y => { y with use := .toTr })
      else v.updCtx p (fun y => { y with use := .stopped, targetReached := true, markPassed := true })
    let held := if s.holdConds c r = [] then w
      else (w.updCtx p (fun y => { y with holdSet := s.holdConds c r })).holdArises p
    handleMsg (.compute p tag) s =
      (if left ≤ c.dc ∧ (held.ctx p).tag = some tag then held.takeTheMark p c else held) ∧
    (u.ctx p) = { (s.ctx p) with
      tag := some tag, tr := none, use := .stopped, markPassed := false, targetReached := false, outstanding := false
      grantHeld := false, powerWait := none, holdSet := [], heldFromAuth := false }) ∧
  ∀ (p : Nat) (c : PlatformCfg) (r : TrainRec) (s : State), s.pcfg p = some c → s.regulated p = some r →
    r.state = .dwelling ∨ r.state = .asking ∨ r.state = .granted ∨ r.state = .authorized ∨ r.state = .held →
    let old := (s.ctx p).holdSet
    let conds := s.holdConds c r
    let w := s.updCtx p (fun x => { x with holdSet := conds })
    let back := fun (v : State) =>
      ((((v.returnHeld p).updCtx p (fun x => { x with grantHeld := false })).updRec r.tag (fun x =>
        { x with grantTime := none })).post (.cancelSource (.train r.run) (some s.cfg.announce.srcDoor)))
    let granted := back w
    let acted := match r.state with
      | .asking => (((w.cancelAsk p).updCtx p (fun x => { x with outstanding := false })).dropPowerWait p)
      | .granted =>
        if (granted.ctx p).use = ChannelUse.authWait then
          (granted.stopDwell p).updCtx p (fun x => { x with use := .stopped })
        else granted
      | .authorized => (back (w.command (.authority p false))).updCtx p (fun x => { x with heldFromAuth := true })
      | _ => w
    let held := acted.moveRec r.tag r.state .held
    let spare := (acted.moveRec r.tag r.state .spare).idleCtx p
    let quiet :=
      if (s.ctx p).use = ChannelUse.cueWait then (w.stopDwell p).updCtx p (fun x => { x with use := .stopped }) else w
    let freed := (quiet.updCtx p (fun x => { x with heldFromAuth := false })).post (.cancelSource (.hold r.run) none)
    (old = [] → conds ≠ [] → .withdraw ∉ conds → r.state ≠ .held →
      s.recomputeHold p = if (held.ctx p).targetReached then held.startCue p r.tag (held.cueLoad p) else held) ∧
    (.withdraw ∉ old → .withdraw ∈ conds → s.recomputeHold p = spare) ∧
    (old = [] → conds ≠ [] → .withdraw ∉ conds → r.state = .held → s.recomputeHold p = w) ∧
    (old ≠ [] → conds = [] → r.state = .held →
      s.recomputeHold p = if (s.ctx p).markPassed then (freed.moveRec r.tag .held .asking).makeAsk p c r
        else freed.moveRec r.tag .held .dwelling) ∧
    (old ≠ [] → conds = [] → r.state ≠ .held → s.recomputeHold p = w) ∧
    (old = [] → conds = [] → s.recomputeHold p = w) ∧
    (old ≠ [] → conds ≠ [] → (.withdraw ∈ old ∨ .withdraw ∉ conds) → s.recomputeHold p = w)

/-! ## The clock (R148 to R159) -/

/-- R156: a tick leaves UNSET as it is and steps a VALID clock by one; at 1,079,999 it stays and the day-overrun flag is
set. Every STATUS carries the clock, its clock-valid flag and the day-overrun flag. A track edge of an UNSET clock
carries no stamp. A cold start leaves the clock UNSET, and no other command makes a VALID clock UNSET. -/
def Obligations.ServiceClockKeepsItsStates : Prop :=
  (∀ s t : State, s.pins.resetLow = false → exec .tick s = .next t →
    match s.tiu.clock with
    | none => t.tiu.clock = none ∧ t.tiu.overrun = s.tiu.overrun
    | some c =>
      if c < 1079999 then t.tiu.clock = some (c + 1) ∧ t.tiu.overrun = s.tiu.overrun
      else t.tiu.clock = some c ∧ t.tiu.overrun = true) ∧
  (∀ s : State, s.statusBody.clock = s.tiu.clock ∧ s.statusBody.overrun = s.tiu.overrun ∧
    (emitStatus s.statusBody).head? = some (byteOf
      (bitAt 0 s.tiu.clock.isSome + bitAt 1 s.tiu.overrun + bitAt 2 s.statusBody.console))) ∧
  (∀ (i m : Nat) (active : Bool) (x : Candidate) (s : State), s.tiu.clock = none → i < s.slc.tracks.length →
    ((s.rawChange i m active).track i).candidate = some x → x.stamp = none) ∧
  (∀ s t : State, exec .powerOn s = .next t → t.tiu.clock = none) ∧
  (∀ s t : State, s.pins.resetLow = false → exec .resetAssert s = .next t → t.tiu.clock = none) ∧
  (∀ (c : Instr) (s t : State), exec c s = .next t → s.tiu.clock ≠ none →
    match c with
    | .powerOn | .resetAssert | .resetRelease => True
    | _ => t.tiu.clock ≠ none)

/-- TICK: the running time steps and stays at its greatest value, the divider reaches the next tick, and nothing outside
the Timing Unit changes. The timers: a single RUNNING channel counts down by one, its mark is due when the count reaches
it, at 0 its expiry is due and a PERIODIC channel takes its reload value again; a joined pair counts down as one number
of 32 bits; a RUNNING coarse place is due when its deadline is reached at a running time that is a multiple of 10. Due
marks are the model's own (log 8). -/
def Obligations.TickCountsTimersDown : Prop :=
  (∀ s : State, s.pins.resetLow = false → ∃ t, exec .tick s = .next t ∧ t.runTime = min 4294967295 (s.runTime + 1) ∧
    t.refMoment = (s.refMoment / 100000 + 1) * 100000 ∧
    { t with tiu := s.tiu, runTime := s.runTime, refMoment := s.refMoment } = s) ∧
  ∀ s t : State, s.pins.resetLow = false → exec .tick s = .next t →
    (∀ i, i < s.tiu.chans.length → (s.chan i).use = .running → (s.chan i).partner = none → (s.chan i).expiryDue = false →
      0 < (s.chan i).count →
      let n := (s.chan i).count - 1
      (t.chan i).use = .running ∧ (t.chan i).expiryDue = decide (n = 0) ∧
        (t.chan i).count = (if n = 0 ∧ (s.chan i).periodic then (s.chan i).reload else n) ∧
        (t.chan i).markDue = ((s.chan i).markDue || (s.chan i).mark == some n)) ∧
    (∀ i, i + 1 < s.tiu.chans.length → i % 2 = 0 → (s.chan i).use = .running → (s.chan (i + 1)).use = .running →
      (s.chan i).partner = some (i + 1) → (s.chan (i + 1)).partner = some i → (s.chan i).expiryDue = false →
      (s.chan (i + 1)).expiryDue = false → 0 < (s.chan i).count + 65536 * (s.chan (i + 1)).count →
      let n := (s.chan i).count + 65536 * (s.chan (i + 1)).count - 1
      (t.chan i).count + 65536 * (t.chan (i + 1)).count = n ∧ (t.chan i).expiryDue = decide (n = 0)) ∧
    (∀ i, i < s.tiu.coarse.length →
      t.place i = { s.place i with due := (s.place i).due ||
        ((s.place i).occupied && !(s.place i).paused && decide ((s.place i).deadline ≤ t.runTime) && t.runTime % 10 == 0) })

/-- R159: the trim falls due at each tick whose running time is a non-zero multiple of 600. CLOCK_TRIM: with a VALID
clock below its limit at a station node that is no reference, and a fresh offset of every trim neighbour, the clock
moves by the clamped mean of the offsets; trimmed or not, the offsets are discarded, and nothing but the Timing Unit
changes. -/
def Obligations.TrimMovesTheClockAlone : Prop :=
  (∀ s t : State, s.pins.resetLow = false → exec .tick s = .next t →
    t.tiu.trimDue = (s.tiu.trimDue || (t.runTime != 0 && t.runTime % 600 == 0))) ∧
  ∀ s : State, s.Ready → s.tiu.trimDue = true → ∃ t, exec .clockTrim s = .next t ∧ t.tiu.offsets = [] ∧
    { t with tiu := s.tiu } = s ∧ t.tiu.chans = s.tiu.chans ∧ t.tiu.coarse = s.tiu.coarse ∧
    ∀ c, s.tiu.clock = some c →
      let offs := s.trimNeighbours.filterMap s.freshOffset
      if s.cfg.role = .station ∧ s.cfg.reference = false ∧ c < 1079999 ∧ s.trimNeighbours ≠ [] ∧
          offs.length = s.trimNeighbours.length then
        let x : Int := (c : Int) + clampInt (-2) 2 ((offs.foldl (· + ·) 0).tdiv offs.length)
        t.tiu.clock = some (if x < 0 then 0 else if 1079999 < x then 1079999 else x.toNat) ∧
          t.tiu.overrun = (s.tiu.overrun || decide (1079999 < x))
      else t.tiu.clock = some c ∧ t.tiu.overrun = s.tiu.overrun

/-- STATUS_PERIOD. In REBUILD and RUNNING this node's STATUS is handed to the CONTROL queue, where it waits when there
is a place; in MUTE nine periods pass and the tenth hands it as the probe. In RUNNING a station's display lines
follow: a line that differs from the last one sent goes out, and one held is replaced. In REBUILD with no rebuild
timer the second period ends the rebuild first. A line holds the train at the platform, then, by a VALID clock, those
approaching, the upstream prediction, or a turnback platform's launch list: two entries at most. Before REBUILD
nothing is handed. The order within the period, that of the lines, and a prediction in a STATUS of REBUILD are the
model's choice (logs 39, 84, 78). -/
def Obligations.StatusPeriodSendsStatus : Prop :=
  (∀ s : State, s.Ready → (s.chan 4).expiryDue = true →
    let u := s.updChan 4 (fun c => { c with expiryDue := false })
    let status := fun (x : State) => ({ sender := s.cfg.node, target := 0, body := .status x.statusBody } : Telegram)
    let formed := fun (x : State) =>
      if s.lbc.mute then
        if s.lbc.mutePeriods + 1 < 10 then { x with lbc := { x.lbc with mutePeriods := s.lbc.mutePeriods + 1 } }
        else ({ x with lbc := { x.lbc with mutePeriods := 0 } } : State).hand (status s) .none true
      else x.hand (status s)
    (s.cfl.start = .running → exec .statusPeriod s = .next (finish (formed u).showLines)) ∧
    (s.cfl.start = .rebuild → s.hoe.rebuildFallback = none → exec .statusPeriod s = .next (finish (formed u))) ∧
    (∀ n, s.cfl.start = .rebuild → s.hoe.rebuildFallback = some n → 1 < n →
      exec .statusPeriod s = .next (finish
        (formed { u with hoe := { s.hoe with rebuildFallback := some (n - 1) } }))) ∧
    (∀ n, s.cfl.start = .rebuild → s.hoe.rebuildFallback = some n → n ≤ 1 → s.lbc.mute = false →
      let v := ({ u with hoe := { s.hoe with up := s.hoe.up.giveUp, down := s.hoe.down.giveUp } } : State).finishRebuild
      exec .statusPeriod s = .next (finish (v.hand { status s with body := .status v.statusBody }))) ∧
    (s.speaking = false → exec .statusPeriod s = .next u) ∧
    (s.cfl.start = .running → s.lbc.mute = false → s.lbc.controlQ.length < 16 →
      ∃ t, exec .statusPeriod s = .next t ∧ ∃ x ∈ t.lbc.controlQ, x.tg = status s ∧ x.probe = false) ∧
    (s.speaking = true → s.hoe.rebuildFallback = none → s.lbc.mute = true → 9 ≤ s.lbc.mutePeriods →
      s.lbc.controlQ.length < 16 → ∃ t, exec .statusPeriod s = .next t ∧ t.lbc.mutePeriods = 0 ∧
        ∃ x ∈ t.lbc.controlQ, x.tg = status s ∧ x.probe = true)) ∧
  (∀ s : State, s.cfl.start = .running →
    (s.cfg.role = .station → s.showLines = s.platforms.foldl State.showLine s) ∧
    (s.cfg.role = .console → s.showLines = s) ∧
    ∀ p c, s.pcfg p = some c →
      let held := s.slc.held.any (fun x => match x with | .display q _ => q == p | _ => false)
      (held = true → s.showLine p = { s with slc := { s.slc with
        held := s.slc.held.map (fun x => match x with
          | .display q l => if q = p then .display p (s.lineOf p c) else .display q l
          | y => y) } }) ∧
      (held = false → s.anu.lastLines.getD p none = some (s.lineOf p c) → s.showLine p = s) ∧
      (held = false → s.anu.lastLines.getD p none ≠ some (s.lineOf p c) →
        s.showLine p = s.command (.display p (s.lineOf p c)))) ∧
  (∀ (p : Nat) (c : PlatformCfg) (s : State),
    let entry := fun (r : TrainRec) (x : Indication) => ({ run := r.run, dest := some r.dest, indication := x } : LineEntry)
    let ind := fun (now : Nat) (t : Int) =>
      if t - (now : Int) ≤ 300 then Indication.due else .minutes (min 99 (((t - (now : Int)).toNat + 599) / 600))
    let here := match s.occupantOf p with
      | none => []
      | some r => if r.state = .spare then [] else [entry r (if r.state = .held then .held else .due)]
    let coming := fun (now : Nat) =>
      if c.turnback then
        (s.ttu.launch.filter (fun e => e.state == .pending && e.plan.platform == p)).map (fun e =>
          { run := e.plan.run, dest := some e.plan.dest, indication := ind now e.plan.departure })
      else
        (sortByAge (s.approaching c.dir)).filterMap (fun r =>
            if s.candidatePlatform r.dir == some p then (s.predictedArrival r).map (fun t => entry r (ind now t)) else none)
          ++ (match (s.upstreamPrediction c).filter (fun x => !s.runCarried x.run) with
            | some x => [{ run := x.run, dest := none, indication := ind now ((x.departure + c.approach : Nat) : Int) }]
            | none => [])
    s.lineOf p c = (here ++ (match s.tiu.clock with | some now => coming now | none => [])).take 2)

/-! ## Track inputs (R9 to R14, R30, R178, R179) -/

/-- TRACK_INPUT_CHANGE of a sampled input: the pin takes the level; a level that is the accepted one discards the
candidate, any other starts a candidate with the moment and the service time at that moment. Nothing else changes. The
moment comes as an operand (log 5). -/
def Obligations.TrackChangeMovesTheCandidate : Prop :=
  ∀ (i cycle m : Nat) (high : Bool) (s : State),
    i < 8 → s.momentAt cycle = some m → s.pins.trk.getD i false ≠ high → s.sampled i = true →
    let active := high != (s.trackCfg i).activeLow
    let fresh : Candidate := { active := active, began := m, stamp := s.tiu.clock }
    exec (.trackInputChange i cycle high) s = .next { s with
      refMoment := m
      pins := { s.pins with trk := s.pins.trk.set i high }
      slc := { s.slc with tracks := s.slc.tracks.modify i (fun t =>
        { t with candidate := if t.accepted = some active then none else some fresh }) } }

/-- FIRST_LEVEL and the edges take the level that has held for the filter time as the accepted level. Before RUNNING a
BERTH input changes the platform's occupancy alone, with the candidate's time stamp; a BRAKE input changes nothing but
the level. In RUNNING a first level that is ACTIVE at a BERTH input is taken as a berth rise, an inactive one changes
nothing but the level, and so does a first level of a BRAKE input. Moments come as operands (logs 5, 7). -/
def Obligations.EdgesBeforeRunning : Prop :=
  (∀ (i cycle m : Nat) (c : Candidate) (s : State), s.Ready → s.momentAt cycle = some m → s.cfl.start ≠ .running →
    (∀ p, s.acceptable i m true = some c → (s.trackCfg i).use = .berth p →
      exec (.firstLevel i cycle) s = .next ((s.levelAccepted i m c).updPlat p (fun d =>
        { d with occupied := c.active, since := if c.active then c.stamp else none }))) ∧
    (∀ p, s.acceptable i m true = some c → (s.trackCfg i).use = .brake p →
      exec (.firstLevel i cycle) s = .next (s.levelAccepted i m c)) ∧
    (∀ p x, s.acceptable i m false = some c → (s.trackCfg i).use = .berth p → c.active = true → s.pcfg p = some x →
      exec (.berthRise i cycle) s = .next ((s.levelAccepted i m c).updPlat p (fun d =>
        { d with occupied := true, since := c.stamp }))) ∧
    (∀ p, s.acceptable i m false = some c → (s.trackCfg i).use = .berth p → c.active = false →
      exec (.berthFall i cycle) s = .next ((s.levelAccepted i m c).updPlat p (fun d =>
        { d with occupied := false, since := none }))) ∧
    (∀ p, s.acceptable i m false = some c → (s.trackCfg i).use = .brake p → c.active = true →
      exec (.brakePointRise i cycle) s = .next (s.levelAccepted i m c))) ∧
  (∀ (i cycle m : Nat) (c : Candidate) (s : State), s.Ready → s.momentAt cycle = some m → s.cfl.start = .running →
    s.acceptable i m true = some c →
    (∀ p, (s.trackCfg i).use = .berth p → exec (.firstLevel i cycle) s = .next
      (if c.active then finish ((s.levelAccepted i m c).riseAt p c.stamp) else s.levelAccepted i m c)) ∧
    (∀ p, (s.trackCfg i).use = .brake p → exec (.firstLevel i cycle) s = .next (s.levelAccepted i m c)))

/-- BERTH_RISE in RUNNING: at a platform that is no turnback platform, with an APPROACHING record of its direction that
is not withdrawn, the platform is OCCUPIED by the oldest such record, which arrives there DWELLING, its departure
computation is begun, and the Handover Engine is told. At a turnback platform the record becomes the run of the first
PENDING launch list entry for it whose run no other record carries, DWELLING, with a RUN_CONFLICT for each entry passed
over; with no such entry it becomes SPARE, run 000. A withdrawn record takes the berth at either as SPARE. With no
APPROACHING record UNKNOWN_ARRIVAL is raised; a SPARE record of run 000 is made for it, and converted in the same way at a
turnback platform; with a full train table no record is made. What the computation gives is HoldsAriseAndClear. Which record is the oldest in a ring of sequences is the model's choice (log 53). -/
def Obligations.BerthRiseTakesTheOldest : Prop :=
  (∀ (i cycle m p : Nat) (c : Candidate) (x : PlatformCfg) (r : TrainRec) (s : State),
     s.Ready → s.momentAt cycle = some m → s.cfl.start = .running → s.acceptable i m false = some c →
     (s.trackCfg i).use = .berth p → c.active = true → s.pcfg p = some x → x.turnback = false →
     s.oldestApproaching x.dir = some r → r.withdraw = false →
     exec (.berthRise i cycle) s = .next (finish
       (((((((s.levelAccepted i m c).updPlat p (fun d => { d with occupied := true, since := c.stamp })).updRec r.tag
         (fun y => y.arrive p x c.stamp)).updPlat p (fun d => { d with occupant := some r.tag })).post
         (.tookBerth r.tag r.run)).moveRec r.tag .approaching .dwelling).post (.compute p r.tag)))) ∧
  (∀ (i cycle m p : Nat) (c : Candidate) (x : PlatformCfg) (s : State),
     s.Ready → s.momentAt cycle = some m → s.cfl.start = .running → s.acceptable i m false = some c →
     (s.trackCfg i).use = .berth p → c.active = true → s.pcfg p = some x → s.oldestApproaching (arrivalDirOf x) = none →
     let u := ((s.levelAccepted i m c).updPlat p (fun d => { d with occupied := true, since := c.stamp })).raise
       .unknownArrival (Loc.ofPlatform p)
     let made := { TrainRec.blank 0 (arrivalDirOf x) .spare with
       origin := c.stamp.getD 0, platform := some p, aa := c.stamp }
     (16 ≤ s.ttu.table.length → exec (.berthRise i cycle) s = .next (finish u)) ∧
     (s.ttu.table.length < 16 → ∃ (v : State) (t : Nat), u.createRec made = (v, .created t) ∧
       v.ttu.table = s.ttu.table ++ [{ made with tag := t }] ∧
       let w := v.updPlat p (fun d => { d with occupant := some t })
       exec (.berthRise i cycle) s = .next (finish (if x.turnback = true then w.convert p t else w)))) ∧
  (∀ (i cycle m p : Nat) (c : Candidate) (x : PlatformCfg) (r : TrainRec) (s : State),
     s.Ready → s.momentAt cycle = some m → s.cfl.start = .running → s.acceptable i m false = some c →
     (s.trackCfg i).use = .berth p → c.active = true → s.pcfg p = some x →
     s.oldestApproaching (arrivalDirOf x) = some r → r.withdraw = true →
     exec (.berthRise i cycle) s = .next (finish
       ((((((s.levelAccepted i m c).updPlat p (fun d => { d with occupied := true, since := c.stamp })).updRec r.tag
         (fun y => y.arrive p x c.stamp)).updPlat p (fun d => { d with occupant := some r.tag })).post
         (.tookBerth r.tag r.run)).moveRec r.tag .approaching .spare))) ∧
  (∀ (i cycle m p : Nat) (c : Candidate) (x : PlatformCfg) (r : TrainRec) (s : State),
     s.Ready → s.momentAt cycle = some m → s.cfl.start = .running → s.acceptable i m false = some c →
     (s.trackCfg i).use = .berth p → c.active = true → s.pcfg p = some x → x.turnback = true →
     s.oldestApproaching x.dir.opp = some r → r.withdraw = false →
     let u := ((((s.levelAccepted i m c).updPlat p (fun d => { d with occupied := true, since := c.stamp })).updRec r.tag
       (fun y => y.arrive p x c.stamp)).updPlat p (fun d => { d with occupant := some r.tag })).post (.tookBerth r.tag r.run)
     let taken := fun (run : Nat) => u.runCarriedByOther run r.tag
     let waiting := (s.ttu.launch.filter (fun e => e.state == .pending && e.plan.platform == p)).map (·.plan)
     let passed := (waiting.takeWhile (fun e => taken e.run)).map (·.run)
     let v := passed.foldl (fun (w : State) run => w.raise .runConflict (Loc.ofRunAt run p))
       ({ u with ttu := { u.ttu with launch := (useLaunch taken p s.ttu.launch).1 } } : State)
     (∀ e, waiting.find? (fun e => !taken e.run) = some e → exec (.berthRise i cycle) s = .next (finish
       ((v.updRec r.tag (fun y => { y with
         run := e.run, dir := x.dir, origin := e.departure, dest := e.dest, pclass := e.pclass, lateness := none
         recvSeq := none, incRef := none, state := .dwelling, converted := true })).post (.compute p r.tag)))) ∧
     (waiting.find? (fun e => !taken e.run) = none → exec (.berthRise i cycle) s = .next (finish
       (v.updRec r.tag (fun y => { y with
         run := 0, dest := 0, pclass := 0, lateness := none, recvSeq := none, incRef := none, state := .spare }))))) ∧
  (∀ (taken : Nat → Bool) (p : Nat) (l : List LaunchEntry),
     ((useLaunch taken p l).1.map (·.plan)) = l.map (·.plan) ∧
     ∀ (j : Nat) (e x : LaunchEntry), l[j]? = some e → (useLaunch taken p l).1[j]? = some x → x ≠ e →
       e.state = .pending ∧ e.plan.platform = p ∧ x.state = (if taken e.plan.run then .cancelled else .launched))

/-- BRAKE_POINT_RISE in RUNNING: its stamp is the platform's latest braking start; an absent stamp leaves the latest
braking start as it stands. The oldest APPROACHING record of the platform's arrival direction has its approach announced,
its announced flag to be set when the request is admitted; with the flag set already, or with no such record, nothing is
announced. BRAKE_POINT_FALL in any state keeps the level and discards the edge. Which record is the oldest in a ring of
sequences is the model's choice (log 53). -/
def Obligations.BrakePointEdgesAreTaken : Prop :=
  (∀ (i cycle m p : Nat) (c : Candidate) (x : PlatformCfg) (s : State),
     s.Ready → s.momentAt cycle = some m → s.cfl.start = .running → s.acceptable i m false = some c →
     (s.trackCfg i).use = .brake p → c.active = true → s.pcfg p = some x →
     let u := match c.stamp with
       | some t => (s.levelAccepted i m c).updCtx p (fun y => { y with latestBrake := some t })
       | none => s.levelAccepted i m c
     (s.oldestApproaching (arrivalDirOf x) = none → exec (.brakePointRise i cycle) s = .next u) ∧
     (∀ r, s.oldestApproaching (arrivalDirOf x) = some r → r.announcedApproach = true →
       exec (.brakePointRise i cycle) s = .next u) ∧
     (∀ r, s.oldestApproaching (arrivalDirOf x) = some r → r.announcedApproach = false →
       exec (.brakePointRise i cycle) s = .next (finish (u.post (.announce
         { template := s.cfg.announce.srcApproach, priority := 1, zones := BitVec.ofNat 5 (2 ^ p)
           slots := [r.dest, p, r.run, 0], repeatCount := 0, interval := 0, source := .train r.run
           flag := some (r.tag, .approach) }))))) ∧
  (∀ (i cycle m p : Nat) (c : Candidate) (s : State), s.Ready → s.momentAt cycle = some m →
     s.acceptable i m false = some c → (s.trackCfg i).use = .brake p → c.active = false →
     exec (.brakePointFall i cycle) s = .next (s.levelAccepted i m c))

/-- BERTH_FALL in RUNNING at a platform whose occupying record is AUTHORIZED is a regular departure: AUTHORITY OFF is
queued, the record leaves for HANDING with its departure lateness, the platform keeps the departure as Aprev and its
plan as Pd_prev, the door cue is cancelled, the start stays counted, the context is idle, lateness is tested, and the
Handover Engine is told. Of a record in DWELLING, ASKING, GRANTED or HELD it is a departure without authority: the
record leaves marked so, its ask is cancelled or its grant given back, and a record held from AUTHORIZED has AUTHORITY
OFF queued once more. A SPARE record is removed. With no occupying record the platform is EMPTY and nothing more. -/
def Obligations.BerthFallDeparts : Prop :=
  (∀ (i cycle m p : Nat) (c : Candidate) (x : PlatformCfg) (r : TrainRec) (s : State),
    s.Ready → s.momentAt cycle = some m → s.cfl.start = .running → s.acceptable i m false = some c →
    (s.trackCfg i).use = .berth p → c.active = false → s.pcfg p = some x →
    let u := (s.levelAccepted i m c).updPlat p (fun d => { d with occupied := false, since := none })
    (u.plat p).occupant = some r.tag → s.recOf r.tag = some r → r.state = .authorized →
    let pd := (planAt x r).2
    let left := (((u.authorityOff p).updRec r.tag (fun y =>
      { y with
        lateness := match c.stamp with
          | some a => some (latenessOf ((a : Int) - pd))
          | none => y.lateness
        platform := none
        grantTime := none })).moveRec r.tag .authorized .handing).updPlat p (fun d =>
      { d with aprev := c.stamp, pdPrev := some pd.toNat, occupant := none })
    exec (.berthFall i cycle) s = .next (finish
      (((((left.cancelDoor r.run).updAsker p Asker.toIdle).idleCtx p).testLate p r.tag).post (.enteredHanding r.tag)))) ∧
  (∀ (i cycle m p : Nat) (c : Candidate) (x : PlatformCfg) (r : TrainRec) (s : State),
    s.Ready → s.momentAt cycle = some m → s.cfl.start = .running → s.acceptable i m false = some c →
    (s.trackCfg i).use = .berth p → c.active = false → s.pcfg p = some x →
    let u := (s.levelAccepted i m c).updPlat p (fun d => { d with occupied := false, since := none })
    (u.plat p).occupant = some r.tag → s.recOf r.tag = some r →
    r.state = .dwelling ∨ r.state = .asking ∨ r.state = .granted ∨ r.state = .held →
    let pd := (planAt x r).2
    let left := (((u.updRec r.tag (fun y =>
      { y with
        lateness := match c.stamp with
          | some a => some (latenessOf ((a : Int) - pd))
          | none => y.lateness
        platform := none
        grantTime := none })).moveRec r.tag r.state .handing).updPlat p (fun d =>
      { d with aprev := c.stamp, pdPrev := some pd.toNat, occupant := none })).updRec r.tag (fun y =>
        { y with departedWithout := true })
    let asked := if (left.ctx p).outstanding then
        ((left.cancelAsk p).updCtx p (fun y => { y with outstanding := false })).dropPowerWait p
      else left.dropPowerWait p
    let given := (if (asked.ctx p).grantHeld then asked.returnHeld p else asked).cancelDoor r.run
    let off := if r.state = .held ∧ (given.ctx p).heldFromAuth then given.command (.authority p false) else given
    exec (.berthFall i cycle) s = .next (finish (((off.idleCtx p).testLate p r.tag).post (.enteredHanding r.tag)))) ∧
  (∀ (i cycle m p : Nat) (c : Candidate) (x : PlatformCfg) (s : State),
    s.Ready → s.momentAt cycle = some m → s.cfl.start = .running → s.acceptable i m false = some c →
    (s.trackCfg i).use = .berth p → c.active = false → s.pcfg p = some x →
    let u := (s.levelAccepted i m c).updPlat p (fun d => { d with occupied := false, since := none })
    ((s.plat p).occupant.bind s.recOf = none → exec (.berthFall i cycle) s = .next u) ∧
    (∀ r, (s.plat p).occupant = some r.tag → s.recOf r.tag = some r → r.state = .spare →
      exec (.berthFall i cycle) s = .next (finish (({ u with ttu := { u.ttu with
        table := s.ttu.table.filter (fun y => y.tag != r.tag)
        plats := u.ttu.plats.map (fun d => if d.occupant = some r.tag then { d with occupant := none } else d) } } :
          State).post (.tagGone r.tag r.run)))))

/-! ## The departure sequence (R33 to R41) -/

/-- DWELL_MARK sets mark passed; a DWELLING record becomes ASKING with the next ask serial outstanding, and its start ask
goes to the Start Arbiter with the present time as ready time, the class demand, and the configured credit for a
regen-matched record no later than Tr + Rw, else none; a power wait channel is asked for unless Pw is 0. The Start
Arbiter's record, IDLE before, holds that ask: a local one is presented to the section's queue; for a section owned
elsewhere it is sent while the owner is PRESENT, and presented in stand-in otherwise. An ask presented joins the queue
as it is, or waits for a place. -/
def Obligations.MarkMakesTheAsk : Prop :=
  (∀ (p : Nat) (c : PlatformCfg) (s : State), s.Ready → s.pcfg p = some c → (s.chan p).markDue = true →
    let u := (s.updChan p (fun y => { y with markDue := false })).updCtx p (fun y => { y with markPassed := true })
    let credit := fun (r : TrainRec) => match s.tiu.clock, (u.ctx p).tr with
      | some now, some tr => if r.regenMatched = true ∧ now ≤ tr + c.rw then s.cfg.rc else 0
      | _, _ => 0
    let serial := ((u.ctx p).serial + 1) % 256
    let asked := fun (r : TrainRec) =>
      ((u.moveRec r.tag .dwelling .asking).updCtx p (fun y => { y with serial := serial, outstanding := true })).startAsk p
        c.onward serial s.tiu.clock (s.cfg.demand r.pclass) (credit r)
    (∀ r, u.regulated p = some r → r.state = .dwelling → exec (.dwellMark p) s = .next (finish
      (if c.pw = 0 then asked r
      else match (asked r).requestTimer (.powerWait p) c.pw with
        | (v, h) => v.updCtx p (fun y => { y with powerWait := h })))) ∧
    (∀ r, u.regulated p = some r → r.state ≠ .dwelling → exec (.dwellMark p) s = .next u) ∧
    (u.regulated p = none → exec (.dwellMark p) s = .next u)) ∧
  (∀ (p id k serial demand credit : Nat) (ready : Option Nat) (s : State), s.secIndex id = some k →
    (s.asker p).phase = .idle →
    let made := fun (x : Route) => s.updAsker p (fun _ =>
      { sec := id, route := x, phase := .idle, serial := serial, ready := ready, demand := demand, credit := credit
        overrideFlag := false, waitEnd := none, origin := none, deferred := false })
    (s.owns k = true → s.startAsk p id serial ready demand credit = (made .localRoute).presentAsk k p) ∧
    (s.owns k = false → s.present (s.partnerOf k) = true →
      s.startAsk p id serial ready demand credit = (made .remote).sendAsk k p) ∧
    (s.owns k = false → s.present (s.partnerOf k) = false →
      s.startAsk p id serial ready demand credit = (made .standIn).presentAsk k p)) ∧
  (∀ (k p : Nat) (s : State),
    let r := s.asker p
    let others := (s.arb k).queue.filter (fun a => !a.ofPair s.cfg.node p)
    let ask : QueuedAsk :=
      { node := s.cfg.node, platform := p, serial := r.serial, ready := r.ready, demand := r.demand, credit := r.credit
        overrideFlag := r.overrideFlag, heard := none }
    let queued := (s.updArb k (fun a => { a with queue := insertAsk ask (a.queue.filter (fun x => !x.ofPair s.cfg.node p)) })).updAsker
      p (fun y => { y with phase := .queued, waitEnd := none })
    let waits := s.updAsker p (fun y => { y with phase := .retryWait, waitEnd := some (s.runTime + 10) })
    let tested := (if others.length < 6 then queued else waits).reevaluate k
    s.presentAsk k p = tested.post (.defer p (tested.asker p).serial))

/-- DWELL_EXPIRY (TO_TR) and AUTH_WAIT_EXPIRY in GRANTED: with no hold condition AUTHORITY ON is queued and the record
becomes AUTHORIZED with its channel STOPPED; with one, the hold arises and no AUTHORITY is queued by this. DWELL_EXPIRY
sets "target reached"; that AUTH_WAIT_EXPIRY leaves it as it stands is the model's choice (log 54). Of a HELD record
DWELL_EXPIRY starts the held cue of 300, unless it has been announced; in any other state nothing more happens. -/
def Obligations.AuthorityNeedsNoHold : Prop :=
  (∀ (p : Nat) (c : PlatformCfg) (r : TrainRec) (s : State), s.Ready → s.pcfg p = some c → s.dwellExpiryDue p = true →
    s.regulated p = some r → r.state = .granted →
    let stopped := s.updChan p (fun y => { y with use := .stopped, count := 0, expiryDue := false })
    let go := fun (u : State) =>
      if s.holdConds c r = [] then
        ((u.command (.authority p true)).moveRec r.tag .granted .authorized).updCtx p (fun y => { y with use := .stopped })
      else (u.updCtx p (fun y => { y with holdSet := s.holdConds c r })).holdArises p
    ((s.ctx p).use = .toTr → exec (.dwellExpiry p) s = .next (finish
      (go (stopped.updCtx p (fun y => { y with targetReached := true, use := .stopped }))))) ∧
    ((s.ctx p).use = .authWait → exec (.authWaitExpiry p) s = .next (finish
      (go (stopped.updCtx p (fun y => { y with use := .stopped })))))) ∧
  (∀ (p : Nat) (c : PlatformCfg) (r : TrainRec) (s : State), s.Ready → s.pcfg p = some c → s.dwellExpiryDue p = true →
    s.regulated p = some r → r.state ≠ .granted →
    let stopped := s.updChan p (fun y => { y with use := .stopped, count := 0, expiryDue := false })
    let reached := stopped.updCtx p (fun y => { y with targetReached := true, use := .stopped })
    ((s.ctx p).use = .toTr → exec (.dwellExpiry p) s = .next (
      if r.state = .held ∧ r.announcedHeld = false then
        (reached.loadDwell p 300 none).updCtx p (fun y => { y with use := .cueWait })
      else reached)) ∧
    ((s.ctx p).use = .authWait → exec (.authWaitExpiry p) s = .next
      (stopped.updCtx p (fun y => { y with use := .stopped }))))

/-- CUE_WAIT_EXPIRY in HELD asks for the held announcement of the run, its flag to be set when it is admitted; in any
other state it stops the channel and does nothing more. POWER_WAIT_EXPIRY releases the power wait channel; an ASKING
record with its ask outstanding asks as an override ask from then on. -/
def Obligations.DepartureWaitsEnd : Prop :=
  (∀ (p : Nat) (c : PlatformCfg) (r : TrainRec) (s : State), s.Ready → s.pcfg p = some c → s.dwellExpiryDue p = true →
     (s.ctx p).use = .cueWait → s.regulated p = some r →
     let u := (s.updChan p (fun y => { y with use := .stopped, count := 0, expiryDue := false })).updCtx p (fun y =>
       { y with use := .stopped })
     exec (.cueWaitExpiry p) s = .next (if r.state = .held then
       finish (u.post (.announce (trainRequest s.cfg.announce.srcHeld 2 p r (.hold r.run) (some (r.tag, .held))))) else u)) ∧
  (∀ (p : Nat) (c : PlatformCfg) (h : Handle) (r : TrainRec) (s : State), s.Ready → s.pcfg p = some c →
     (s.ctx p).powerWait = some h → s.expired h = true →
     let u := (s.releaseTimer h).updCtx p (fun y => { y with powerWait := none })
     u.regulated p = some r →
     exec (.powerWaitExpiry p) s = .next (finish
       (if r.state = .asking ∧ (u.ctx p).outstanding = true then u.overrideAsk p else u)))

/-! ## Handing trains over (R48 to R66) -/

/-- HANDOVER_RETRY_EXPIRY in phase FIRST: below four attempts the HANDOVER is sent afresh with a retry timer of 20;
after the fourth the record is ORPHANED as LOST and HANDOVER_LOST is raised. ORPHAN_RETRY_EXPIRY: the record is ORPHANED
again and waits for the next STATUS of the downstream node. STALL_WATCH_EXPIRY: TRAIN_STALLED is raised over the
approach span for a record still APPROACHING. Attempts are counted as log 33 says. -/
def Obligations.HandoverTimersAct : Prop :=
  (∀ (tag : Nat) (x : HandoverCtx) (s : State), s.Ready → s.retryDue tag .first = true →
     (s.dropRetry tag).hctx tag = some x →
     exec (.handoverRetryExpiry tag) s = .next (finish
       (if x.attempts < 4 then
         ((((s.dropRetry tag).updHctx x.tag (fun y => { y with attempts := y.attempts + 1 })).sendHandover x.tag).askRetry
           x.tag 20)
       else
         (((((s.dropRetry tag).dropRetry x.tag).moveRec x.tag .handing .orphaned).updHctx x.tag (fun y =>
           { y with phase := .orphanWait, reason := some .lost })).raise .handoverLost (Loc.ofRun x.carried.run))))) ∧
  (∀ (tag : Nat) (s : State), s.Ready → s.retryDue tag .orphanRetry = true →
     exec (.orphanRetryExpiry tag) s = .next (finish
       (((s.dropRetry tag).moveRec tag .handing .orphaned).updHctx tag (fun y => { y with phase := .orphanWait })))) ∧
  (∀ (tag : Nat) (w : StallWatch) (r : TrainRec) (s : State), s.Ready → s.watchOf tag = some w → s.expired w.timer = true →
     (s.dropWatch tag).recOf tag = some r →
     exec (.stallWatchExpiry tag) s = .next (finish
       (if r.state = .approaching then
         (s.dropWatch tag).raiseOver .trainStalled (Loc.ofRun r.run) ((s.dropWatch tag).cfg.approachSpan r.dir)
       else s.dropWatch tag)))

/-- HANDOVER in REBUILD or RUNNING from the upstream node, of a train with a run number: a repeat is answered TAKEOVER
again, and the record that carries its run and sequence takes its console hold and withdraw flags where they are set; a
run already carried is refused DUPLICATE with RUN_CONFLICT; with the table full it is refused FULL. -/
def Obligations.HandoverIsAnswered : Prop :=
  ∀ (sender : Nat) (e : SentEntry) (ts : List Received) (s : State), s.Ready → s.cfg.role = .station →
    s.HeadIs { sender := sender, target := s.cfg.node, body := .handover e } ts → s.speaking = true →
    sender = s.cfg.upstream e.carried.dir → e.carried.run ≠ 0 →
    let u := s.withRx ts
    let answer := fun (v : State) (b : Body) => v.send sender b
    (s.isRepeat e = true → exec .handover s = .next (finish
      (answer (({ u with ttu := { u.ttu with table := s.ttu.table.map (fun r =>
          if r.run == e.carried.run && r.recvSeq == some e.seq then
            { r with consoleHold := r.consoleHold || e.carried.consoleHold, withdraw := r.withdraw || e.carried.withdraw }
          else r) } } : State).post .holdRecompute) (.takeover e.carried.run e.carried.dir e.seq)))) ∧
    (s.isRepeat e = false → s.runCarried e.carried.run = true → exec .handover s = .next (finish
      ((answer u (.refusal e.carried.run e.carried.dir e.seq true)).raise .runConflict (Loc.ofRun e.carried.run)))) ∧
    (s.isRepeat e = false → s.runCarried e.carried.run = false → 16 ≤ s.ttu.table.length → exec .handover s = .next (finish
      (answer u (.refusal e.carried.run e.carried.dir e.seq false))))

/-- HANDOVER that is new, with room in the table: the record is created APPROACHING as carried; a sequence other than
the expected one raises SEQUENCE_GAP; the expected-receive counter follows the sequence, the received history takes the
train, its stall watch starts, and TAKEOVER is sent. -/
def Obligations.HandoverCreatesTheRecord : Prop :=
  ∀ (sender tag : Nat) (e : SentEntry) (ts : List Received) (s u : State), s.Ready → s.cfg.role = .station →
    s.HeadIs { sender := sender, target := s.cfg.node, body := .handover e } ts → s.speaking = true →
    sender = s.cfg.upstream e.carried.dir → e.carried.run ≠ 0 → s.isRepeat e = false →
    (s.withRx ts).createRec (recOfCarried e.carried e.seq) = (u, .created tag) →
    let v := if ((u.hoeDir e.carried.dir).expected).all (· == e.seq) then u
      else u.raise .sequenceGap (Loc.ofRun e.carried.run)
    exec .handover s = .next (finish
      (((v.updHoeDir e.carried.dir (fun h =>
        { h with
          expected := some ((e.seq + 1) % 256)
          received := joinHistory { run := e.carried.run, seq := e.seq } h.received
          accepted := true })).startWatch tag).send sender (.takeover e.carried.run e.carried.dir e.seq)))

/-- TAKEOVER that matches a handover context closes it: the sent history takes the record as last sent, the last
taken-over sequence follows, the record is removed, a LOST orphan's condition ends; one that matches none changes only
the queue. REFUSAL in phase FIRST: DUPLICATE orphans the record as CONFLICT with RUN_CONFLICT; FULL waits 10, or after
the fourth attempt orphans it as LOST. Attempts are counted as log 33 says. -/
def Obligations.TakeoverAndRefusalAct : Prop :=
  (∀ (sender run seq : Nat) (d : Dir) (ts : List Received) (s : State), s.Ready → s.cfg.role = .station →
     s.HeadIs { sender := sender, target := s.cfg.node, body := .takeover run d seq } ts →
     let u := s.withRx ts
     (u.matchHandover sender run d seq = none → exec .takeover s = .next u) ∧
     (∀ x, u.matchHandover sender run d seq = some x → exec .takeover s = .next (finish
       (let v := ((((u.dropRetry x.tag).updHoeDir d (fun h =>
           { h with
             sent := joinHistory { carried := x.carried, seq := x.seq } h.sent
             lastTaken := newerTaken h.lastTaken x.seq })).closeHctx x.tag).removeRec x.tag)
         if x.reason = some OrphanReason.lost then v.post (.condEnd .handoverLost (Loc.ofRun x.carried.run)) else v)))) ∧
  (∀ (sender run seq : Nat) (d : Dir) (dup : Bool) (x : HandoverCtx) (ts : List Received) (s : State), s.Ready →
     s.cfg.role = .station → s.HeadIs { sender := sender, target := s.cfg.node, body := .refusal run d seq dup } ts →
     (s.withRx ts).matchHandover sender run d seq = some x → x.phase = .first →
     let u := s.withRx ts
     exec .refusal s = .next (finish
       (if dup then
         (((u.dropRetry x.tag).raise .runConflict (Loc.ofRun x.carried.run)).moveRec x.tag .handing .orphaned).updHctx x.tag
           (fun y => { y with phase := .orphanWait, reason := some .conflict })
       else if x.attempts < 4 then u.askRetry x.tag 10
       else u.orphanLost x.tag x.carried.run)))

/-- RENEW_ASK in REBUILD or RUNNING: the downstream node of a direction is sent the last taken-over sequence and the
sent history, the upstream node the expected-receive counter and the received history. RENEW_REPLY in REBUILD for a side
still ASKED: the upstream node's gives the candidates and, unless a HANDOVER was accepted since, the expected- receive
counter; the downstream node's the send counter. -/
def Obligations.RenewalIsAskedAndAnswered : Prop :=
  (∀ (sender : Nat) (d : Dir) (ts : List Received) (s : State), s.Ready → s.cfg.role = .station → s.speaking = true →
     s.HeadIs { sender := sender, target := s.cfg.node, body := .renewAsk d } ts →
     s.cfg.upstream d ≠ s.cfg.downstream d →
     let u := s.withRx ts
     let h := s.hoeDir d
     (sender = s.cfg.downstream d →
       exec .renewAsk s = .next (finish (u.send sender (.renewReply d h.lastTaken (.sent h.sent))))) ∧
     (sender = s.cfg.upstream d →
       exec .renewAsk s = .next (finish (u.send sender (.renewReply d h.expected (.received h.received)))))) ∧
  (∀ (sender : Nat) (d : Dir) (n : Option Nat) (ts : List Received) (s : State), s.Ready → s.cfg.role = .station →
     s.cfl.start = .rebuild →
     let u := s.withRx ts
     (∀ es, s.HeadIs { sender := sender, target := s.cfg.node, body := .renewReply d n (.sent es) } ts →
       sender = s.cfg.upstream d → (s.hoeDir d).upSide = .asked →
       exec .renewReply s = .next (finish ((u.updHoeDir d (fun h =>
         { h with
           upSide := .answered
           upReply := es
           expected := match n with
             | some k => if h.accepted then h.expected else some ((k + 1) % 256)
             | none => h.expected })).post .rebuildCheck))) ∧
     (∀ es, s.HeadIs { sender := sender, target := s.cfg.node, body := .renewReply d n (.received es) } ts →
       sender = s.cfg.downstream d → (s.hoeDir d).downSide = .asked →
       exec .renewReply s = .next (finish ((u.updHoeDir d (fun h =>
         { h with downSide := .answered, downReply := es, sendCtr := some (n.getD 0) })).post .rebuildCheck))))

/-! ## Traction sections (R70 to R86) -/

/-- GATE_COMPLETION of an owned section: the next gate starts where this one ends; a count from 1 to 65,534 is good and
gives Im, any other is bad and makes the value stale; then the section's queue is tested again. At the third bad gate in a
row the transducer is faulty and TRANSDUCER_FAULT is raised, unless it was; at the third good one in a row the fault and
its condition end and the value is fresh. The edges come as an operand (log 28). -/
def Obligations.GateGivesTheCurrent : Prop :=
  ∀ (k edges g : Nat) (c : SectionCfg) (s : State), s.Ready → s.scfg k = some c → c.owner = true →
    (s.sec k).gateStart = some g → g + c.g < s.tickStart + 100000 → k < s.secs.length →
    let n := min 65535 ((s.sec k).gateCount + edges)
    ∃ u : State, exec (.gateCompletion k edges) s = .next (finish (u.reevaluate k)) ∧
      (u.sec k).gateStart = some (g + c.g) ∧ (u.sec k).gateCount = 0 ∧ u.refMoment = max s.refMoment (g + c.g) ∧
      (1 ≤ n ∧ n < 65535 → (u.sec k).im = some (gateCurrent c n) ∧ (u.sec k).bad = 0 ∧
        (u.sec k).good = min 3 ((s.sec k).good + 1)) ∧
      (¬(1 ≤ n ∧ n < 65535) → (u.sec k).stale = true ∧ (u.sec k).good = 0 ∧ (u.sec k).im = (s.sec k).im ∧
        (u.sec k).bad = min 3 ((s.sec k).bad + 1)) ∧
      (1 ≤ n ∧ n < 65535 → 2 ≤ (s.sec k).good → (u.sec k).fault = false ∧ (u.sec k).stale = false ∧
        u.work = if (s.sec k).fault = true then [.condEnd .transducerFault (Loc.ofSection c.id)] else []) ∧
      (1 ≤ n ∧ n < 65535 → (s.sec k).good < 2 → (u.sec k).fault = (s.sec k).fault ∧ u.work = [] ∧
        (u.sec k).stale = if (s.sec k).fault = false ∧ (s.sec k).im = none then false else (s.sec k).stale) ∧
      (¬(1 ≤ n ∧ n < 65535) → 2 ≤ (s.sec k).bad → (u.sec k).fault = true ∧ u.work =
        if (s.sec k).fault = true then []
        else [.raise { kind := .transducerFault, loc := Loc.ofSection c.id, cover := some (some c.span), severity := none
                       effects := none }]) ∧
      (¬(1 ≤ n ∧ n < 65535) → (s.sec k).bad < 2 → (u.sec k).fault = (s.sec k).fault ∧ u.work = [])

/-- RECLOSE_DELAY_EXPIRY in RECLOSE_WAIT: with an allowance timer to be had, the attempt is listed at the present
running time, BREAKER CLOSE is queued and the section is RECLOSING; with none, it is LOCKED_OUT. CLOSE_ALLOWANCE_EXPIRY
in RECLOSING or RESTORING: the section is LOCKED_OUT and SECTION_LOCKOUT is raised. -/
def Obligations.RecloseDelayAndAllowanceEnd : Prop :=
  (∀ (k : Nat) (s : State), s.Ready → s.secTimerDue k .recloseWait = true →
     let u := s.dropSecTimer k
     exec (.recloseDelayExpiry k) s = .next (finish (match u.askSecTimer k 30 with
       | (v, true) =>
         let x := v.updSec k (fun d => { d with attempts := joinAttempt s.runTime d.attempts })
         let w := (x.command (.breaker (x.secId k) true)).setSecState k (some .reclosing)
         if w.breakerReads k 1 then w.closedReport k else w
       | (v, false) => v.lockOut k))) ∧
  (∀ (k : Nat) (s : State), s.Ready → (s.secTimerDue k .reclosing = true ∨ s.secTimerDue k .restoring = true) →
     exec (.closeAllowanceExpiry k) s = .next (finish
       (((s.dropSecTimer k).setSecState k (some .lockedOut)).raiseSection k .sectionLockout))) ∧
  (∀ (t : Nat) (l : List Nat), l.length ≤ 1 → joinAttempt t l = l ++ [t])

/-- POINT of a breaker point of an owned section of a station, from the entry to LISTEN, the station link UP. Values 2
to 15 change nothing but the image (R75). R81, R83: in ISOLATED an open report clears the re-sent flag; a closed
report with the flag clear queues BREAKER OPEN once more and sets it, with the flag set changes nothing; the state
stays ISOLATED. In RECLOSE_WAIT and LOCKED_OUT a closed report releases any section timer and the section is
ENERGIZED, its attempt list kept, the conditions of its trip and lockout ended; an open report changes nothing. So it
is in RECLOSING, and in RESTORING, where the attempt list is emptied (R80). With no state held the first report gives
ISOLATED or ENERGIZED (R77). In ENERGIZED a closed report changes nothing and an open one is a trip (R78):
SECTION_TRIP is raised and the attempts of the last 600 are kept; with two of them the section is LOCKED_OUT with
SECTION_LOCKOUT; else it waits to reclose, with a timer of Rd, or with none to be had is LOCKED_OUT. That this timer
is asked for before the raise is taken is the model's choice (log 79). -/
def Obligations.BreakerReportsAreTaken : Prop :=
  ∀ (n v k : Nat) (c : SectionCfg) (rs : List Report) (s : State), s.Ready → s.listening = true → s.cfg.role = .station →
    s.slc.reports = .point n v :: rs → s.slc.link = .up → s.pointUse n = .breaker k → s.scfg k = some c → c.owner = true →
    k < s.secs.length →
    let w : State := { s with slc := { s.slc with
      reports := rs, image := s.slc.image.set n { value := some v, stale := false } } }
    let place := Loc.ofSection c.id
    let live := fun (x : State) => (x.dropSecTimer k).setSecState k (some .energized)
    let ended := fun (x : State) => (x.post (.condEnd .sectionTrip place)).post (.condEnd .sectionLockout place)
    (2 ≤ v → exec .point s = .next w) ∧
    ((s.sec k).state = some .isolated →
      let shut := w.updSec k (fun d => { d with resent := false })
      let again := (w.command (.breaker c.id false)).updSec k (fun d => { d with resent := true })
      (v = 0 → exec .point s = .next shut ∧ (shut.sec k).state = some .isolated) ∧
      (v = 1 → (s.sec k).resent = false → exec .point s = .next again ∧ (again.sec k).state = some .isolated) ∧
      (v = 1 → (s.sec k).resent = true → exec .point s = .next w)) ∧
    ((s.sec k).state = some .recloseWait ∨ (s.sec k).state = some .lockedOut ∨ (s.sec k).state = some .reclosing →
      (v = 1 → exec .point s = .next (finish (ended (live w))) ∧ ((live w).sec k).state = some .energized ∧
        ((live w).sec k).attempts = (s.sec k).attempts ∧ ((live w).sec k).timer = none) ∧
      (v = 0 → exec .point s = .next w)) ∧
    ((s.sec k).state = some .restoring →
      (v = 1 → exec .point s = .next (finish (ended (live (w.updSec k (fun d => { d with attempts := [] })))))) ∧
      (v = 0 → exec .point s = .next w)) ∧
    ((s.sec k).state = none →
      (v = 1 → exec .point s = .next (finish (ended (live w)))) ∧
      (v = 0 → exec .point s = .next (finish (w.setSecState k (some .isolated))))) ∧
    ((s.sec k).state = some .energized →
      let kept := (s.sec k).attempts.filter (fun t => decide (s.runTime ≤ t + 600))
      let tripped := (w.raiseOver .sectionTrip place (some c.span)).updSec k (fun d => { d with attempts := kept })
      let locked := fun (x : State) =>
        ((x.dropSecTimer k).setSecState k (some .lockedOut)).raiseOver .sectionLockout place (some c.span)
      (v = 1 → exec .point s = .next w) ∧
      (v = 0 → 2 ≤ kept.length → exec .point s = .next (finish (locked tripped))) ∧
      (∀ x, v = 0 → kept.length < 2 → tripped.askSecTimer k c.rd = (x, true) →
        exec .point s = .next (finish (x.setSecState k (some .recloseWait)))) ∧
      (∀ x, v = 0 → kept.length < 2 → tripped.askSecTimer k c.rd = (x, false) →
        exec .point s = .next (finish (locked x))))

/-- ISOLATE_SECTION and RESTORE_SECTION: UNKNOWN and REFUSED for ids that are not an owned section's; an owned section
is isolated from every state; a restore is refused in any state but ISOLATED and LOCKED_OUT, under a cut, or with no
timer to be had. -/
def Obligations.SectionsIsolateAndRestore : Prop :=
  ∀ (sender serial i id : Nat) (ts : List Received) (s : State),
    let u := s.withRx ts
    (s.Ordered sender serial i (.isolateSection id) ts →
      let d := Directive.isolateSection id
      (s.secIndex id = none → exec .isolateSection s = .next (finish (u.answered i sender serial d .unknown))) ∧
      (∀ k, s.secIndex id = some k → s.owns k = false →
        exec .isolateSection s = .next (finish (u.answered i sender serial d .refused))) ∧
      (∀ k, s.secIndex id = some k → s.owns k = true → exec .isolateSection s = .next (finish
        ((((((u.dropSecTimer k).breaker k false).updSec k (fun y => { y with resent := false })).setSecState k
          (some .isolated))).answered i sender serial d .done)))) ∧
    (s.Ordered sender serial i (.restoreSection id) ts →
      let d := Directive.restoreSection id
      (s.secIndex id = none → exec .restoreSection s = .next (finish (u.answered i sender serial d .unknown))) ∧
      (∀ k, s.secIndex id = some k →
        s.owns k = false ∨ ((s.sec k).state ≠ some .isolated ∧ (s.sec k).state ≠ some .lockedOut) ∨ s.cutCovers k = true →
        exec .restoreSection s = .next (finish (u.answered i sender serial d .refused))) ∧
      (∀ k v, s.secIndex id = some k → s.owns k = true →
        ((s.sec k).state = some .isolated ∨ (s.sec k).state = some .lockedOut) → s.cutCovers k = false →
        u.askSecTimer k 30 = (v, true) →
        exec .restoreSection s = .next (finish ((v.commandClose k .restoring).answered i sender serial d .done))) ∧
      (∀ k v, s.secIndex id = some k → s.owns k = true →
        ((s.sec k).state = some .isolated ∨ (s.sec k).state = some .lockedOut) → s.cutCovers k = false →
        u.askSecTimer k 30 = (v, false) →
        exec .restoreSection s = .next (finish (v.answered i sender serial d .refused))))

/-! ## Start arbitration (R90 to R107) -/

/-- COUNTED_START_EXPIRY: the first counted start whose end time is reached leaves and the queue is tested again.
TAKEN_START_EXPIRY: the first taken start whose window is over leaves, and nothing else changes.
QUEUED_ASK_REFRESH_EXPIRY: the first ask of the sharing node unheard for 30 leaves the queue, which is tested again.
That of several which end together the first in its list leaves first is the model's choice (log 11). -/
def Obligations.StartsAndAsksLeave : Prop :=
  (∀ (k : Nat) (c : Counted) (s : State), s.Ready →
     (s.arb k).counted.find? (fun x => decide (x.endTime ≤ s.runTime)) = some c →
     exec (.countedStartExpiry k) s = .next (finish
       ((s.updArb k (fun a => { a with counted := a.counted.erase c })).reevaluate k))) ∧
  (∀ (k : Nat) (x : Taken) (s : State), s.Ready →
     (s.arb k).taken.find? (fun y => decide (y.takenAt + s.cfg.sw ≤ s.runTime)) = some x →
     exec (.takenStartExpiry k) s = .next (s.updArb k (fun a => { a with taken := a.taken.erase x }))) ∧
  (∀ (k : Nat) (a : QueuedAsk) (s : State), s.Ready →
     (s.arb k).queue.find? (fun x => match x.heard with | some t => decide (t + 30 ≤ s.runTime) | none => false) = some a →
     exec (.queuedAskRefreshExpiry k) s = .next (finish
       ((s.updArb k (fun x => { x with queue := x.queue.erase a })).reevaluate k)))

/-- RETRY_WAIT_END and ASK_WAIT_END: a remote ask is sent with a new answer wait of 10; a local or stand-in ask is
presented to the queue; a wait that ended with no POWER_DEFER is DEFER to the Regulation Engine, which changes nothing
there. A remote ask is sent at its wait end whatever the owner's presence (log 43). -/
def Obligations.AsksGoAgain : Prop :=
  ∀ (p k : Nat) (s : State), s.Ready → s.secIndex (s.asker p).sec = some k → s.reachedOpt (s.asker p).waitEnd = true →
    ((s.asker p).phase = .retryWait → (s.asker p).route = .remote →
      exec (.retryWaitEnd p) s = .next (finish (s.sendAsk k p))) ∧
    ((s.asker p).phase = .retryWait → (s.asker p).route ≠ .remote →
      exec (.retryWaitEnd p) s = .next (finish (s.presentAsk k p))) ∧
    ((s.asker p).phase = .waiting → (s.asker p).deferred = true →
      exec (.askWaitEnd p) s = .next (finish (s.sendAsk k p))) ∧
    ((s.asker p).phase = .waiting → (s.asker p).deferred = false →
      exec (.askWaitEnd p) s = .next (finish ((s.post (.defer p (s.asker p).serial)).sendAsk k p)))

/-- POWER_ASK in RUNNING from the partner of an owned section: a start already counted is answered POWER_GRANT again; an
ask already queued has its last-heard time set, and takes the override flag when it is newly set, whereupon the queue is
tested again; a new ask joins the queue, which is tested, or with six others queued is answered FULL. One still queued
then is answered POWER_DEFER. In any other start state, and from any other node, a POWER_ASK is discarded. -/
def Obligations.PowerAskIsAnswered : Prop :=
  (∀ (sender k : Nat) (b : PowerAskBody) (ts : List Received) (s : State), s.Ready → s.cfg.role = .station →
    s.cfl.start = .running → s.HeadIs { sender := sender, target := s.cfg.node, body := .powerAsk b } ts →
    s.sharedWith sender b.sec = some k →
    let u := s.withRx ts
    let counted := (s.arb k).counted.any (Counted.is sender b.platform b.serial)
    let queued := (s.arb k).queue.find? (QueuedAsk.is sender b.platform b.serial)
    let others := (s.arb k).queue.filter (fun a => !a.ofPair sender b.platform)
    let ask : QueuedAsk :=
      { node := sender, platform := b.platform, serial := b.serial, ready := b.ready, demand := b.demand,
        credit := b.credit, overrideFlag := b.overrideFlag, heard := some s.runTime }
    (counted = true → exec .powerAsk s = .next (finish (u.send sender (.powerGrant b.sec b.platform b.serial)))) ∧
    (counted = false → queued = none → 6 ≤ others.length →
      exec .powerAsk s = .next (finish (u.send sender (.powerDefer b.sec b.platform b.serial true)))) ∧
    (counted = false → queued = none → others.length < 6 → exec .powerAsk s = .next (finish
      (((u.updArb k (fun a => { a with queue := insertAsk ask others })).reevaluate k).answerQueued k sender b))) ∧
    (∀ a, counted = false → queued = some a →
      let noted := u.updArb k (fun y => { y with queue := y.queue.map (fun x =>
        if x.is sender b.platform b.serial then
          { x with heard := some s.runTime, overrideFlag := x.overrideFlag || b.overrideFlag }
        else x) })
      ((b.overrideFlag && !a.overrideFlag) = false →
        exec .powerAsk s = .next (finish (noted.answerQueued k sender b))) ∧
      ((b.overrideFlag && !a.overrideFlag) = true →
        exec .powerAsk s = .next (finish ((noted.reevaluate k).answerQueued k sender b))))) ∧
  (∀ (sender : Nat) (b : PowerAskBody) (ts : List Received) (s : State), s.Ready → s.cfg.role = .station →
    s.HeadIs { sender := sender, target := s.cfg.node, body := .powerAsk b } ts →
    s.cfl.start ≠ .running ∨ s.sharedWith sender b.sec = none → exec .powerAsk s = .next (s.withRx ts)) ∧
  (∀ (k node : Nat) (b : PowerAskBody) (s : State), s.answerQueued k node b =
    if (s.arb k).queue.any (QueuedAsk.is node b.platform b.serial) then
      s.send node (.powerDefer b.sec b.platform b.serial false) else s)

/-- POWER_RETURN in RUNNING from the partner of an owned section: a counted start with sender, platform and serial is
removed, or else a queued ask with them is; either is followed by the test of the queue; with neither the return is
ignored. A POWER_RETURN from any other node is ignored. -/
def Obligations.PowerReturnRemoves : Prop :=
  ∀ (sender id p serial : Nat) (ts : List Received) (s : State), s.Ready → s.cfg.role = .station →
    s.cfl.start = .running → s.HeadIs { sender := sender, target := s.cfg.node, body := .powerReturn id p serial } ts →
    let u := s.withRx ts
    (∀ k, s.sharedWith sender id = some k →
      exec .powerReturn s = .next (finish
        (if (s.arb k).counted.any (Counted.is sender p serial) then
          (u.updArb k (fun a => { a with counted := a.counted.filter (fun c => !c.is sender p serial) })).reevaluate k
        else if (s.arb k).queue.any (QueuedAsk.is sender p serial) then
          (u.updArb k (fun a => { a with queue := a.queue.filter (fun x => !x.is sender p serial) })).reevaluate k
        else u))) ∧
    (s.sharedWith sender id = none → exec .powerReturn s = .next u)

/-- POWER_GRANT and POWER_DEFER in RUNNING from the owner of a section: a grant that matches a WAITING remote ask
makes the asker record HOLDING and joins the taken starts, and the Regulation Engine has its GRANT; a grant held
already is passed over; any other goes back to the owner by POWER_RETURN with its platform and serial, and the start
it recorded leaves the taken starts, while the asker record and the train's record stay as they are, whatever section
or serial it names. A matching POWER_DEFER marks the wait. -/
def Obligations.PowerAnswersReachTheAsker : Prop :=
  ∀ (sender k id p serial : Nat) (ts : List Received) (s : State), s.Ready → s.cfg.role = .station →
    s.cfl.start = .running → s.ownedBy sender id = some k →
    let u := s.withRx ts
    let r := s.asker p
    let start : Taken :=
      { platform := p, serial := serial, demand := r.demand - r.credit, takenAt := s.runTime, origin := .remote }
    (s.HeadIs { sender := sender, target := s.cfg.node, body := .powerGrant id p serial } ts →
      (s.answerMatches id p serial = true → r.route = .remote → exec .powerGrant s = .next (finish
        (((u.updAsker p (fun y => { y with phase := .holding, origin := some .remote, waitEnd := none })).updArb k (fun a =>
          { a with taken := joinTaken start a.taken })).post (.grant p serial .remote id)))) ∧
      (s.answerMatches id p serial = false → s.grantHeldAlready id p serial = true → exec .powerGrant s = .next u) ∧
      (s.answerMatches id p serial = false → s.grantHeldAlready id p serial = false →
        exec .powerGrant s = .next (finish ((u.send sender (.powerReturn id p serial)).updArb k (fun a =>
          { a with taken := a.taken.filter (fun t => !t.is p serial .remote) }))))) ∧
    (∀ full, s.HeadIs { sender := sender, target := s.cfg.node, body := .powerDefer id p serial full } ts →
      (s.answerMatches id p serial = true → exec .powerDefer s = .next (finish
        ((u.updAsker p (fun y => { y with deferred := true })).post (.defer p serial)))) ∧
      (s.answerMatches id p serial = false → exec .powerDefer s = .next u))

/-- Every step lengthens a section's counted-start list only by grants, each made where the ask at the queue's head is
grantable, and by the seeds of a stand-in that begins. Grantable is: the section is ENERGIZED, fewer starts are counted
than the limit in force, and the ask is an override or Im, the counted demands and its net demand stay within Imax, an
unset Im being 0 (R92). The net demand is max(0, demand − credit); a start granted to another node is counted with it,
at the tail, until the start window is over; a head that is not grantable keeps its place. Of a step from rest at
a node whose phrase timeout is above 0, as 12.4 has every configured one: a new start was asked as `State.MayAsk` says, queued before, by the POWER_ASK taken, from an asker record or by a start ask of
the step; the section is ENERGIZED, or isolated later in the same event; the starts counted before it are fewer than the
limit; and by an override ask or within Imax with their demands it is counted until now + Sw. That each list stays within
3 is StepKeepsPlaces. -/
def Obligations.GrantsCountTheNetDemand : Prop :=
  (∀ demand credit : Nat, (netDemand demand credit : Int) = max 0 ((demand : Int) - credit)) ∧
  (∀ (k : Nat) (a : QueuedAsk) (s : State), k < s.sar.arbs.length → a.node ≠ s.cfg.node →
    ((s.grantAsk k a).arb k).counted = (s.arb k).counted ++ [a.start s.runTime s.cfg.sw]) ∧
  (∀ (k : Nat) (a : QueuedAsk) (c : SectionCfg) (s : State), s.scfg k = some c →
    (s.grantable k a = true ↔ (s.sec k).state = some .energized ∧
      (s.arb k).counted.length <
        (if c.owner = false ∨ (s.sec k).im = none ∨ (s.sec k).fault = true then 1 else c.limit) ∧
      (a.overrideFlag = true ∨
        ((s.sec k).im.getD 0) + ((s.arb k).counted.map (·.demand)).sum + (a.demand - a.credit) ≤ c.imax))) ∧
  (∀ (k : Nat) (s : State), (∀ a, (s.arb k).queue.head? = some a → s.grantable k a = false) → s.reevaluate k = s) ∧
  (∀ (k : Nat) (a : QueuedAsk) (s : State), (s.arb k).queue.head? = some a → s.grantable k a = true →
    s.reevaluate k = State.reevaluateN 5 k (s.grantAsk k a)) ∧
  (∀ (k : Nat) (before after : List Counted) (c : Counted) (s t : State), s.Quiet → 0 < s.cfg.announce.phraseTimeout →
    step s = .next t → (t.arb k).counted = before ++ c :: after → c ∉ (s.arb k).counted →
    ((s.arb k).standIn = false ∧ ∃ x ∈ (s.arb k).taken, c =
      { node := s.cfg.node, platform := x.platform, serial := x.serial, demand := x.demand
        endTime := x.takenAt + s.cfg.sw }) ∨
    ∃ (a : QueuedAsk) (x : SectionCfg), s.MayAsk t k a ∧ c = a.start t.runTime t.cfg.sw ∧ t.scfg k = some x ∧
      ((t.sec k).state = some .energized ∨ (t.sec k).state = some .isolated) ∧
      before.length < (if x.owner = false ∨ (t.sec k).im = none ∨ (t.sec k).fault = true then 1 else x.limit) ∧
      (a.overrideFlag = true ∨
        (t.sec k).im.getD 0 + (before.map (·.demand)).sum + (a.demand - a.credit) ≤ x.imax))

/-! ## Incidents (R109 to R128) -/

/-- CLEARED_LINGER_END: a CLEARED entry leaves the table 600 after it was cleared. PEER_AGEING: a peer entry not CLEARED
and unheard for 900 becomes CLEARED. Before that nothing changes. -/
def Obligations.PeerAndClearedEntriesAge : Prop :=
  (∀ (node serial t : Nat) (e : Incident) (s : State), s.Ready → s.inc ⟨node, serial⟩ = some e → e.state = .cleared →
     e.clearedAt = some t →
     exec (.clearedLingerEnd node serial) s = .next (if t + 600 ≤ s.runTime then
       { s with inu := { s.inu with table := s.inu.table.filter (fun x => x.id != ⟨node, serial⟩) } } else s)) ∧
  (∀ (node serial t : Nat) (e : Incident) (s : State), s.Ready → s.inc ⟨node, serial⟩ = some e → e.own = false →
     e.state ≠ .cleared → e.lastHeard = some t →
     exec (.peerAgeing node serial) s = .next (if t + 900 ≤ s.runTime then finish (s.clearInc ⟨node, serial⟩) else s))

/-- ESCALATION_EXPIRY: the severity rises by one, the timer is started again for it, and the entry's INCIDENT and the
level follow. INCIDENT_REFRESH in REBUILD or RUNNING: an own entry not CLEARED whose refresh is due is sent again, its
next refresh due 300 later. -/
def Obligations.OwnEntriesEscalateAndRefresh : Prop :=
  (∀ (serial : Nat) (e : Incident) (s : State), s.Ready →
     let id : IncId := ⟨s.cfg.node, serial⟩
     s.inc id = some e → s.expiredOpt e.timer = true →
     let v := ((((s.dropEscalation id).updInc id (fun x => { x with severity := x.severity + 1 })).startEscalation id).markDirty
       id).post .levelCheck
     exec (.escalationExpiry serial) s = .next (finish (match v.inc id with
       | some x => if x.state = .opened then v.announceInc x else v
       | none => v))) ∧
  (∀ (serial : Nat) (e : Incident) (s : State), s.Ready →
     let id : IncId := ⟨s.cfg.node, serial⟩
     s.inc id = some e → e.own = true → e.state ≠ .cleared → s.speaking = true → s.reachedOpt e.refreshDue = true →
     exec (.incidentRefresh serial) s = .next ((s.send 0 e.body).updInc id (fun x =>
       { x with refreshDue := if x.state = .cleared then none else some (s.runTime + 300) })))

/-- INCIDENT of this node's own origin, and one CLEARED that is not in the table, change nothing but the queue; one not
in the table, not CLEARED and reaching this node is admitted while there is a free place: the entry joins with the
present time, the references and the effects follow, and an OPEN one is announced. With the table full the oldest
CLEARED entry is evicted for it, or else the peer entry of lowest severity below its own, the earliest admitted among
equals; with none it is dropped and counted. Of a peer entry held it is an update: its parts are replaced, the effects
follow, and CLEARED clears it; one CLEARED already is left. At a console node one whose id is in no entry there goes to the workstation as a VIEW, as it
came, and changes nothing else. Ties are the model's choice (log 11). -/
def Obligations.IncidentsAreAdmitted : Prop :=
  (∀ (sender : Nat) (b : IncidentBody) (ts : List Received) (s : State), s.Ready → s.cfg.role = .station →
    s.HeadIs { sender := sender, target := 0, body := .incident b } ts →
    let u := s.withRx ts
    (b.id.node = s.cfg.node → exec .incident s = .next u) ∧
    (b.id.node ≠ s.cfg.node → s.inc b.id = none → b.state = .cleared ∨ s.reaches b.cover = false →
      exec .incident s = .next u) ∧
    (b.id.node ≠ s.cfg.node → s.inc b.id = none → b.state ≠ .cleared → s.reaches b.cover = true →
      s.inu.table.length < 32 →
      let e := peerEntry s.runTime b
      let v := (({ u with inu := { u.inu with table := u.inu.table ++ [e] } } : State).setRef e).actingMoved
      exec .incident s = .next (finish (if b.state = .opened then v.announceInc e else v))) ∧
    (b.id.node ≠ s.cfg.node → s.inc b.id = none → b.state ≠ .cleared → s.reaches b.cover = true →
      32 ≤ s.inu.table.length →
      let joins := fun (w : State) =>
        let e := peerEntry s.runTime b
        let v := (({ w with inu := { w.inu with table := w.inu.table ++ [e] } } : State).setRef e).actingMoved
        finish (if b.state = .opened then v.announceInc e else v)
      (∀ x, s.oldestCleared = some x → exec .incident s = .next (joins (u.evict x))) ∧
      (∀ x, s.oldestCleared = none → s.lowestPeer b.severity = some x →
        exec .incident s = .next (joins (u.evict x))) ∧
      (s.oldestCleared = none → s.lowestPeer b.severity = none → exec .incident s = .next
        { u with lbc := { u.lbc with drops := min 65535 (u.lbc.drops + 1) } })) ∧
    (∀ e, b.id.node ≠ s.cfg.node → s.inc b.id = some e → e.state = .cleared → exec .incident s = .next u) ∧
    (∀ e, b.id.node ≠ s.cfg.node → s.inc b.id = some e → e.state ≠ .cleared →
      let x := { peerEntry s.runTime b with admittedAt := e.admittedAt }
      let v := (u.updInc b.id (fun _ => x)).actingMoved
      (b.state = .cleared → exec .incident s = .next (finish
        ((u.updInc b.id (fun _ => { x with state := e.state })).clearInc b.id))) ∧
      (b.state ≠ .cleared → e.state = .standing → b.state = .opened →
        exec .incident s = .next (finish ((v.announceInc x).setRef x))) ∧
      (b.state = .opened ∨ b.state = .acked → ¬(e.state = .standing ∧ b.state = .opened) → e.severity < b.severity →
        exec .incident s = .next (finish (v.announceInc x))) ∧
      (b.state = .standing ∨ (b.state ≠ .cleared ∧ ¬(e.state = .standing ∧ b.state = .opened) ∧ b.severity ≤ e.severity) →
        exec .incident s = .next (finish v)))) ∧
  (∀ (r : Received) (b : IncidentBody) (ts : List Received) (s : State), s.Ready → s.cfg.role = .console →
    s.lbc.rx = r :: ts → r.tg.body = .incident b → s.inc b.id = none →
    exec .incident s = .next ((s.withRx ts).view (.telegram r.bytes))) ∧
  (∀ (below : Nat) (x : Incident) (s : State),
    (s.oldestCleared = some x → x ∈ s.inu.table ∧ x.state = .cleared ∧
      ∀ y ∈ s.inu.table, y.state = .cleared → x.clearedAt.getD 0 ≤ y.clearedAt.getD 0) ∧
    (s.lowestPeer below = some x → x ∈ s.inu.table ∧ x.own = false ∧ x.severity < below ∧
      ∀ y ∈ s.inu.table, y.own = false → x.severity < y.severity ∨
        (x.severity = y.severity ∧ x.admittedAt ≤ y.admittedAt)))

/-- ACK_INCIDENT, CLEAR_INCIDENT: an id of another origin is REFUSED, an id no own entry carries UNKNOWN; an OPEN entry
is ACKED with its escalation ended, a STANDING one CLEARED; a clear makes any own entry CLEARED; an entry ACKED or
CLEARED already is left, DONE. -/
def Obligations.IncidentsAreAcknowledged : Prop :=
  ∀ (sender serial i : Nat) (id : IncId) (ts : List Received) (s : State),
    let u := s.withRx ts
    let d := Directive.ackIncident id
    let c := Directive.clearIncident id
    (s.Ordered sender serial i d ts →
      (id.node ≠ s.cfg.node → exec .ackIncident s = .next (finish (u.answered i sender serial d .refused))) ∧
      (id.node = s.cfg.node → (s.inc id).filter (·.own) = none →
        exec .ackIncident s = .next (finish (u.answered i sender serial d .unknown))) ∧
      (∀ e, id.node = s.cfg.node → (s.inc id).filter (·.own) = some e →
        let v := u.updInc id (fun x => { x with ackBy := some sender })
        (e.state = .opened → exec .ackIncident s = .next (finish
          (((((v.dropEscalation id).updInc id (fun x => { x with state := .acked })).markDirty id).actingMoved).answered i
            sender serial d .done))) ∧
        (e.state = .standing → exec .ackIncident s = .next (finish ((v.clearInc id).answered i sender serial d .done))) ∧
        (e.state = .acked ∨ e.state = .cleared →
          exec .ackIncident s = .next (finish (u.answered i sender serial d .done))))) ∧
    (s.Ordered sender serial i c ts →
      (id.node ≠ s.cfg.node → exec .clearIncident s = .next (finish (u.answered i sender serial c .refused))) ∧
      (id.node = s.cfg.node → (s.inc id).filter (·.own) = none →
        exec .clearIncident s = .next (finish (u.answered i sender serial c .unknown))) ∧
      (∀ e, id.node = s.cfg.node → (s.inc id).filter (·.own) = some e →
        (e.state = .cleared → exec .clearIncident s = .next (finish (u.answered i sender serial c .done))) ∧
        (e.state ≠ .cleared → exec .clearIncident s = .next (finish ((u.clearInc id).answered i sender serial c .done)))))

/-- DECLARE_INCIDENT raises an OPERATOR incident with the directive's location and cover, its severity up to the ceiling of
the console's level (4, 5 or 7), and its effects, CUT from level 3 up alone; it answers whether it is kept. CLEAR_OVERFLOW sets the floor to 0, whatever it was, and the level follows. -/
def Obligations.OperatorIncidentsAndOverflow : Prop :=
  ∀ (sender serial i : Nat) (ts : List Received) (s : State),
    let u := s.withRx ts
    (∀ a c, s.Ordered sender serial i (.declareIncident a) ts → s.cfg.consoles[i]? = some c →
      let ceiling := if c.level = 1 then 4 else if c.level = 2 then 5 else 7
      let x := u.takeRaise { kind := .operator, loc := a.loc, cover := a.cover.map some
                             severity := some (min a.severity ceiling)
                             effects := some { a.effects with cut := a.effects.cut && decide (3 ≤ c.level) } }
      exec .declareIncident s = .next (finish
        (x.1.answered i sender serial (.declareIncident a) (if x.2 = true then .done else .refused)))) ∧
    (s.Ordered sender serial i .clearOverflow ts →
      exec .clearOverflow s = .next (finish
        ((({ u with inu := { u.inu with floor := 0 } } : State).post .levelCheck).answered i sender serial .clearOverflow
          .done)))

/-! ## Announcements (R137 to R143) -/

/-- WAKE_TIMER_EXPIRY: the timer is released; every waiting request whose not-before is reached loses its waiting mark;
a timer is asked for the earliest not-before left; then the queue is selected from. With none left waiting no timer is
held (log 30). -/
def Obligations.WakeTimerEndsWaits : Prop :=
  ∀ (h : Handle) (s : State), s.Ready → s.anu.wake = some h → s.expired h = true →
    let v := s.releaseTimer h
    let q := s.anu.queue.map (fun r =>
      if r.waiting && s.reachedOpt r.notBefore then { r with waiting := false, notBefore := none } else r)
    let u : State := { v with anu := { v.anu with queue := q, wake := none, wakeAt := none } }
    exec .wakeTimerExpiry s = .next (finish
      ((match earliestWait q with | some t => u.askWake t | none => u).post .select))

/-- READY_RISE, READY_FALL and PLAYER_TIMER_EXPIRY move the player link as Table 7-5 says: a rise in AWAIT_RISE is a
phrase done, in MUTE it ends the fault, in IDLE it sends the FIFO head; a fall in AWAIT_FALL loads the player timer
again with the phrase timeout, or leaves a phrase that has no timer without one; an expiry in AWAIT_FALL is a phrase
done, in IDLE and AWAIT_RISE it mutes the link with PLAYER_FAULT. -/
def Obligations.PlayerLinkMoves : Prop :=
  (∀ s : State, s.Quiet → s.pins.ready = false →
    let u : State := { s with pins := { s.pins with ready := true } }
    (s.anu.player = .awaitFall → exec .readyRise s = .next u) ∧
    (s.anu.player = .awaitRise → exec .readyRise s = .next (finish
      (({ u.releasePlayer with anu := { u.releasePlayer.anu with outstanding := none, player := .idle } } : State).post
        .boundary))) ∧
    (s.anu.player = .mute → exec .readyRise s = .next (finish
      ((({ u with anu := { u.anu with player := .idle } } : State).post (.condEnd .playerFault Loc.none)).post .pump))) ∧
    (s.anu.player = .idle → ∀ r p ps, s.anu.playing = some r → s.anu.fifo = p :: ps → ∃ v : State,
      exec .readyRise s = .next (finish v) ∧ v.pins.plTx = emitPlay p.code r.zones ∧ v.anu.outstanding = some p ∧
        v.anu.player = .awaitFall)) ∧
  (∀ s : State, s.Quiet → s.pins.ready = true →
    let u : State := { s with pins := { s.pins with ready := false } }
    let v : State := { u with anu := { u.anu with player := .awaitRise } }
    (s.anu.player = .awaitFall → s.anu.playerTimer = none → exec .readyFall s = .next v) ∧
    (∀ h, s.anu.player = .awaitFall → s.anu.playerTimer = some h →
      exec .readyFall s = .next (finish (v.reloadTimer h s.cfg.announce.phraseTimeout))) ∧
    (s.anu.player ≠ .awaitFall → exec .readyFall s = .next u)) ∧
  (∀ s : State, s.Ready → s.expiredOpt s.anu.playerTimer = true →
    (s.anu.player = .idle → exec .playerTimerExpiry s = .next (finish
      ((({ s.releasePlayer with anu := { s.releasePlayer.anu with player := .mute } } : State).raise .playerFault
        Loc.none).post .pump))) ∧
    (s.anu.player = .awaitFall → exec .playerTimerExpiry s = .next (finish
      (({ s.releasePlayer with anu := { s.releasePlayer.anu with outstanding := none, player := .idle } } : State).post
        .boundary))) ∧
    (s.anu.player = .awaitRise →
      let m := ({ s with anu := { s.anu with muted := stepCount s.anu.muted } } : State).raise .playerFault Loc.none
      exec .playerTimerExpiry s = .next (finish
        (({ m.releasePlayer with anu := { m.releasePlayer.anu with outstanding := none, player := .mute } } : State).post
          .boundary))))

/-! ## The line bus (R162 to R177, R200) -/

/-- A telegram that can be sent is read back from its bytes: every field of every kind, at every value it can hold. -/
def Obligations.TelegramsReadBack : Prop :=
  ∀ t : Telegram, t.fits → parseTelegram (emitTelegram t) = some t ∧ isWhole (emitTelegram t) = true

/-- TRANSMIT_START: with no telegram being sent and a ready head, the highest class with one starts: its attempt count
is at least 1, it is out of backoff, and BUS_DE is driven. A head is ready after its gap, in backoff after 16 k bit
times more, and a BULK head only 64 bit times after the previous PLAN_BLOCK. With no ready head nothing changes. The
quiet and the echo come as operands (log 6). That the next quiet is measured from a start whose echo never comes, too, is
the model's choice (log 63). -/
def Obligations.HighestReadyClassStarts : Prop :=
  ∀ (cycle m quiet : Nat) (echoed : Bool) (s : State), s.Ready → s.momentAt cycle = some m → s.speaking = true →
    s.lbc.sending = none →
    let q := min quiet (bitTimes s.lbc.lastBit m)
    (∀ c, s.startClass m q = some c →
      let u : State := { s with
        refMoment := m
        lbc := { s.lbc.updHead c (fun x => { x with attempts := max 1 x.attempts, backoff := false }) with
          sending := some (c, false), startedAt := m, lastBit := m }
        pins := { s.pins with busDe := true } }
      exec (.transmitStart cycle quiet echoed) s = .next (if echoed then finish u.echoHeard else u)) ∧
    (s.startClass m q = none → exec (.transmitStart cycle quiet echoed) s = .next s) ∧
    (s.headReady .alert m q = true → s.startClass m q = some .alert) ∧
    (s.headReady .alert m q = false → s.headReady .control m q = true → s.startClass m q = some .control) ∧
    (s.headReady .alert m q = false → s.headReady .control m q = false → s.headReady .bulk m q = true →
      s.startClass m q = some .bulk) ∧
    (∀ c x xs, s.lbc.queue c = x :: xs → (s.headReady c m q = true ↔
      (c.gap + (if x.backoff then 16 * backoffStep s.cfg.backoff s.cfg.node (x.attempts - 1) else 0) ≤ q ∧
        (c = .bulk → ∀ e, s.lbc.lastBlockEnd = some e → 64 ≤ bitTimes e m))))

/-- TELEGRAM_SENT, COLLISION and ECHO_FAULT end a start. One whose echo has been seen is sent whole and leaves its
queue, or collides: it goes into backoff with its attempts stepped, or is dropped after 16. One whose echo has not been
seen 24 bit times after it is an echo fault: it ends as a collision does and is counted, a probe is discarded, and the
third in a row enters MUTE; before that nothing happens. LINE_BUS_FAULT_QUIET_END: 600 ds after the last attempt drop,
outside MUTE, the condition ends; with a drop less than 600 ds old, in MUTE, or with no condition nothing changes. That an echo is seen within the 24 bit times is an
operand of the start (log 6). -/
def Obligations.StartsEnd : Prop :=
  (∀ (cycle m : Nat) (c : TelegramClass) (heard : Bool) (x : TxItem) (xs : List TxItem) (s : State), s.Ready →
     s.momentAt cycle = some m → s.lbc.sending = some (c, heard) → s.lbc.queue c = x :: xs →
     let u : State := { s with refMoment := m }
     let v := u.endSending.lineBit m
     let back := fun (w : State) =>
       if 16 ≤ x.attempts then (({ w with lbc := w.lbc.popHead c } : State).attemptDrop).noteDropped x.note
       else { w with lbc := w.lbc.updHead c (fun y => { y with attempts := y.attempts + 1, backoff := true }) }
     let w : State := { v with lbc := v.lbc.popHead c }
     (heard = true →
       exec (.telegramSent cycle) s = .next (finish
         ((if c = .bulk then ({ w with lbc := { w.lbc with lastBlockEnd := some m } } : State) else w).noteSent x.note)) ∧
       exec (.collision cycle) s = .next (finish (back v)) ∧ exec (.echoFault cycle) s = .next s) ∧
     (heard = false →
       exec (.telegramSent cycle) s = .next s ∧ exec (.collision cycle) s = .next s ∧
       (bitTimes s.lbc.startedAt m < 24 → exec (.echoFault cycle) s = .next s) ∧
       (24 ≤ bitTimes s.lbc.startedAt m → x.probe = true → exec (.echoFault cycle) s = .next (
         { u.endSending with lbc := u.endSending.lbc.popHead c })) ∧
       (24 ≤ bitTimes s.lbc.startedAt m → x.probe = false →
         let b := back u.endSending
         let f : State := { b with lbc := { b.lbc with echoFaults := b.lbc.echoFaults + 1 } }
         exec (.echoFault cycle) s = .next (finish
           (if f.lbc.mute = false ∧ 3 ≤ f.lbc.echoFaults then f.enterMute else f))))) ∧
  (∀ s : State, s.Ready →
     (s.lbc.faultPresent = true → s.lbc.mute = false → (∀ t ∈ s.lbc.dropTimes, t + 600 ≤ s.runTime) →
       exec .lineBusFaultQuietEnd s = .next (finish
         (({ s with lbc := { s.lbc with faultPresent := false } } : State).post (.condEnd .lineBusFault Loc.none)))) ∧
     ((∃ t ∈ s.lbc.dropTimes, s.runTime < t + 600) → exec .lineBusFaultQuietEnd s = .next s) ∧
     (s.lbc.faultPresent = false ∨ s.lbc.mute = true → exec .lineBusFaultQuietEnd s = .next s))

/-- TELEGRAM_RECEIVED and FRAGMENT: bytes that are malformed, or of this node's own number, are discarded and counted;
what passes the filter joins the receive queue as it came, with the time of its reception, or with 24 there is lost and
counted; what the filter stops leaves no trace but the bit seen on the line. A fragment is formed when the line has been
quiet for 12 bit times, of two cycles each, and its last bit lies so far back (log 6); a fragment with no whole byte is the
model's choice (log 76). -/
def Obligations.ReceivedTelegramsAreFiltered : Prop :=
  ∀ (cycle m : Nat) (bs : Bytes) (s : State), s.Ready → s.momentAt cycle = some m → s.listening = true →
    let u : State := { s with refMoment := m, lbc := { s.lbc with lastBit := m } }
    let counted := fun (v : State) => ({ v with lbc := { v.lbc with discards := min 65535 (s.lbc.discards + 1) } } : State)
    let discarded := counted u
    (isFragment bs = true → 12 ≤ bitTimes s.lbc.lastBit m → exec (.fragment cycle bs) s = .next
      (counted { s with refMoment := m, lbc := { s.lbc with lastBit := m - 24 } })) ∧
    (isFragment bs = false ∨ bitTimes s.lbc.lastBit m < 12 → exec (.fragment cycle bs) s = .next s) ∧
    (isWhole bs = true → parseTelegram bs = none → exec (.telegramReceived cycle bs) s = .next discarded) ∧
    (∀ t, isWhole bs = true → parseTelegram bs = some t →
      (t.sender = s.cfg.node → exec (.telegramReceived cycle bs) s = .next discarded) ∧
      (t.sender ≠ s.cfg.node → s.admits t = false → exec (.telegramReceived cycle bs) s = .next u) ∧
      (t.sender ≠ s.cfg.node → s.admits t = true → s.lbc.rx.length < 24 →
        exec (.telegramReceived cycle bs) s = .next { u with lbc := { u.lbc with
          rx := s.lbc.rx ++ [{ tg := t, bytes := bs, time := s.runTime, stamp := s.tiu.clock }] } }) ∧
      (t.sender ≠ s.cfg.node → s.admits t = true → 24 ≤ s.lbc.rx.length →
        exec (.telegramReceived cycle bs) s = .next
          { u with lbc := { u.lbc with overruns := min 65535 (s.lbc.overruns + 1) } }))

/-- R169: the receive queue holds at most 24 telegrams; one that passes the filter while 24 are held is lost and the
overruns count steps by one; the queue is emptied at each cold and warm start. -/
def Obligations.ReceiveQueueHoldsTwentyFour : Prop :=
  (∀ s t : State, s.lbc.rx.length ≤ 24 → step s = .next t → t.lbc.rx.length ≤ 24) ∧
  (∀ (cycle m : Nat) (bs : Bytes) (x : Telegram) (s : State), s.Ready → s.momentAt cycle = some m → s.listening = true →
    isWhole bs = true → parseTelegram bs = some x → x.sender ≠ s.cfg.node → s.admits x = true → s.lbc.rx.length = 24 →
    exec (.telegramReceived cycle bs) s = .next { s with
      refMoment := m
      lbc := { s.lbc with lastBit := m, overruns := min 65535 (s.lbc.overruns + 1) } }) ∧
  (∀ s t : State, exec .powerOn s = .next t → t.lbc.rx = []) ∧
  (∀ s t : State, s.pins.resetLow = false → exec .resetAssert s = .next t → t.lbc.rx = []) ∧
  (∀ s t : State, s.Ready → s.cfl.restart = .ready → exec .warmStart s = .next t → t.lbc.rx = [])

/-- STATUS of a watched node makes it PRESENT with its last-heard time and latest STATUS as received (log 46), and may
set a clock in UNSET; where the node was ABSENT stand-in ends in its sections: the stand-in lists are empty, a queued
ask waits for the owner with a new answer wait of 10, one in RETRY_WAIT turns REMOTE. NEIGHBOUR_ABSENT: a PRESENT node
unheard for 50 becomes ABSENT, its mirrors stale, its sections in stand-in. ANSWER changes nothing at a station node
and is forwarded at a console node as it came. So are STATUS and HANDOVER there: a STATUS to all may set the console's
clock in UNSET, from a station node; a HANDOVER changes nothing more. The order of several sections of one node, and
of the blocks that take a STATUS, is the model's choice (logs 50, 84, 85). -/
def Obligations.StatusIsHeard : Prop :=
  (∀ (r : Received) (b : StatusBody) (w : Watched) (ts : List Received) (s : State), s.Ready → s.cfg.role = .station →
    s.lbc.rx = r :: ts → r.tg.body = .status b → r.tg.target = 0 → s.watch r.tg.sender = some w →
    ∃ v : State, exec .status s = .next (finish v) ∧
      v.watch r.tg.sender = some { w with present := true, lastHeard := some r.time, latest := some (r.time, b) } ∧
      (∀ c, s.tiu.clock = some c → v.tiu.clock = some c ∧ v.tiu.overrun = s.tiu.overrun) ∧
      (∀ c, s.tiu.clock = none → b.clock = some c → s.cfg.reference = false → r.tg.sender ∈ s.neighbours →
        v.tiu.clock = some c ∧ v.tiu.overrun = b.overrun) ∧
      (∀ k, w.present = false → k ∈ s.standInOf r.tg.sender → (s.arb k).standIn = true → k < s.sar.arbs.length →
        (v.arb k).standIn = false ∧ (v.arb k).counted = [] ∧ (v.arb k).queue = [] ∧ (v.arb k).taken = (s.arb k).taken ∧
        (∀ p ∈ s.askersIn k .standIn .queued, v.asker p =
          { s.asker p with route := .remote, phase := .waiting, waitEnd := some (s.runTime + 10), deferred := false }) ∧
        (∀ p ∈ s.askersIn k .standIn .retryWait, v.asker p = { s.asker p with route := .remote }))) ∧
  (∀ (n t : Nat) (w : Watched) (s : State), s.Ready → s.watch n = some w → w.present = true → w.lastHeard = some t →
    exec (.neighbourAbsent n) s = .next (if t + 50 ≤ s.runTime then
      let v := (s.updWatch n (fun y => { y with present := false })).staleMirrors n
      finish ((v.standInOf n).foldl State.beginStandIn v)
    else s)) ∧
  (∀ (r : Received) (b : AnswerBody) (ts : List Received) (s : State), s.Ready → s.lbc.rx = r :: ts →
    r.tg.body = .answer b →
    exec .answer s = .next (if s.cfg.role = .station then s.withRx ts else (s.withRx ts).view (.telegram r.bytes))) ∧
  (∀ (r : Received) (b : StatusBody) (ts : List Received) (s : State), s.Ready → s.cfg.role = .console →
    s.lbc.rx = r :: ts → r.tg.body = .status b →
    let w := (s.withRx ts).view (.telegram r.bytes)
    (r.tg.target ≠ 0 → r.tg.target ≠ s.cfg.node → exec .status s = .next w) ∧
    (r.tg.target = 0 → ∃ v : State, exec .status s = .next (finish v) ∧ v.slc = w.slc ∧
      (∀ c, s.tiu.clock = some c → v.tiu.clock = some c ∧ v.tiu.overrun = s.tiu.overrun) ∧
      (∀ c, s.tiu.clock = none → b.clock = some c → s.cfg.reference = false → b.console = false →
        v.tiu.clock = some c ∧ v.tiu.overrun = b.overrun))) ∧
  (∀ (r : Received) (e : SentEntry) (ts : List Received) (s : State), s.Ready → s.cfg.role = .console →
    s.lbc.rx = r :: ts → r.tg.body = .handover e →
    exec .handover s = .next ((s.withRx ts).view (.telegram r.bytes)))

/-- PLAN_OPEN, PLAN_BLOCK, PLAN_CLOSE and PLAN_TIMER_EXPIRY at a station node in RUNNING: an opening is denied, refused,
answered busy or begins a transfer of its announced blocks with a timer of 50; the block due is staged and the timer
loaded again, any other rejects the transfer; a closing that agrees applies the staged list; the timer ends the transfer
TIMED_OUT. What code and serial the ANSWER carries is a free value (log 42). -/
def Obligations.PlansAreTransferred : Prop :=
  (∀ (sender i n r : Nat) (ts : List Received) (s : State), s.Ready → s.cfg.role = .station → s.cfl.start = .running →
    s.HeadIs { sender := sender, target := s.cfg.node, body := .planOpen i n r } ts →
    let u := s.withRx ts
    let ok := s.hasTurnback = true ∧ 1 ≤ n ∧ n ≤ 64 ∧ r ≤ 7
    let busy := s.lbc.planResult = .inProgress ∧ ∃ x, s.lbc.transfer = some x ∧ x.console ≠ sender
    (s.consoleIndex sender = none → exec .planOpen s = .next (finish (u.answerPlan sender 14 i .denied))) ∧
    (s.consoleIndex sender ≠ none → ¬ok → exec .planOpen s = .next (finish (u.answerPlan sender 14 i .refused))) ∧
    (s.consoleIndex sender ≠ none → ok → busy → exec .planOpen s = .next (finish (u.answerPlan sender 14 i .busy))) ∧
    (s.consoleIndex sender ≠ none → ok → ¬busy → exec .planOpen s = .next (finish
      ((match (u.dropPlanTimer.clearStaging).requestTimer .plan 50 with
        | (v, some h) =>
          let x : Transfer := { console := sender, planId := i, blocks := n, remainder := r, nextIndex := 0, received := 0,
                                timer := some h }
          ({ v with lbc := { v.lbc with transfer := some x, planResult := .inProgress } } : State)
        | (v, none) => v.endTransfer .timedOut).answerPlan sender 14 i .done)))) ∧
  (∀ (sender i k : Nat) (es : List PlanEntry) (h : Handle) (x : Transfer) (ts : List Received) (s : State), s.Ready →
    s.cfg.role = .station → s.HeadIs { sender := sender, target := s.cfg.node, body := .planBlock i k es } ts →
    s.planOf sender i = some x → x.timer = some h →
    let u := s.withRx ts
    let due := k = x.nextIndex ∧ k < x.blocks ∧
      es.length = (if k < x.blocks - 1 then 8 else if x.remainder = 0 then 8 else x.remainder)
    let v := es.foldl State.stage u
    let y : Transfer := { x with nextIndex := x.nextIndex + 1, received := x.received + es.length }
    (due → exec .planBlock s = .next (finish
      (({ v with lbc := { v.lbc with transfer := some y } } : State).reloadTimer h 50))) ∧
    (¬due → exec .planBlock s = .next (finish
      (((u.dropPlanTimer).endTransfer .rejected).raise .planFault Loc.none)))) ∧
  (∀ (sender i total : Nat) (x : Transfer) (ts : List Received) (s : State), s.Ready → s.cfg.role = .station →
    s.HeadIs { sender := sender, target := s.cfg.node, body := .planClose i total } ts → s.planOf sender i = some x →
    let u := s.withRx ts
    let announced := (x.blocks - 1) * 8 + (if x.remainder = 0 then 8 else x.remainder)
    let reject := fun (v : State) =>
      (((v.dropPlanTimer).endTransfer .rejected).raise .planFault Loc.none).answerPlan sender 15 i .refused
    exec .planClose s = .next (finish
      (if x.nextIndex = x.blocks ∧ x.received = announced ∧ total = announced then
        match u.applyStaging with
        | (v, true) => ((v.dropPlanTimer).endTransfer .done).answerPlan sender 15 i .done
        | (v, false) => reject v
      else reject u))) ∧
  (∀ (x : Transfer) (h : Handle) (s : State), s.Ready → s.lbc.transfer = some x → x.timer = some h → s.expired h = true →
    exec .planTimerExpiry s = .next (finish ((s.releaseTimer h).endTransfer .timedOut)))

/-! ## The station link (R180 to R191) -/

/-- VALID_FRAME keeps the link's last-valid time; a link LOST comes UP, with a RESTORE sweep asked before the frame is
taken; a report of the node's role joins the report FIFO, or with 32 there is lost, counted, and an OVERRUN sweep asked.
STATION_LINK_SILENCE after 30 and STATION_LINK_BREAK at once make the link LOST with every point stale.
COMMAND_FRAME_SENT: the head command leaves and held ones take the free places; where one place is free, the oldest held
command takes it, if urgent ahead of every routine command that has not started. -/
def Obligations.StationLinkIsWatched : Prop :=
  ∀ s : State, s.Ready →
    let u : State := { s with slc := { s.slc with lastValid := s.runTime } }
    let lost := (({ s with slc := { s.slc with
        link := .lost
        image := s.slc.image.map (fun v => { v with stale := true })
        sweep := .idle
        again := if s.slc.sweep = .idle then s.slc.again else false
        waitEnd := none } } : State).post .holdRecompute).raise .stationLinkLost Loc.none
    let restored := ((({ u with slc := { u.slc with link := .up } } : State).requestSweep .restore).post
      (.condEnd .stationLinkLost Loc.none)).post .holdRecompute
    (∀ bytes, parseFrame bytes = some .idle → s.slc.link = .up → exec (.validFrame bytes) s = .next u) ∧
    (∀ bytes, parseFrame bytes = some .idle → s.slc.link = .lost → exec (.validFrame bytes) s = .next (finish restored)) ∧
    (∀ bytes r, parseFrame bytes = some (.report r) → s.slc.link = .lost → exec (.validFrame bytes) s = .next (finish
      (if s.roleTakes r then restored.joinReports r else restored))) ∧
    (∀ bytes r, parseFrame bytes = some (.report r) → s.slc.link = .up → s.roleTakes r = true →
      s.slc.reports.length < 32 → exec (.validFrame bytes) s = .next
        { u with slc := { u.slc with reports := s.slc.reports ++ [r] } }) ∧
    (∀ bytes r, parseFrame bytes = some (.report r) → s.slc.link = .up → s.roleTakes r = true →
      32 ≤ s.slc.reports.length → exec (.validFrame bytes) s = .next (finish
        (({ u with slc := { u.slc with lostReports := min 65535 (s.slc.lostReports + 1) } } : State).requestSweep
          .overrun))) ∧
    (∀ bytes r, parseFrame bytes = some (.report r) → s.slc.link = .up → s.roleTakes r = false →
      exec (.validFrame bytes) s = .next u) ∧
    (s.slc.link = .up → exec .stationLinkBreak s = .next (finish lost)) ∧
    (s.slc.link = .up → s.slc.lastValid + 30 ≤ s.runTime → exec .stationLinkSilence s = .next (finish lost)) ∧
    (s.slc.link = .up → s.runTime < s.slc.lastValid + 30 → exec .stationLinkSilence s = .next s) ∧
    (∀ x xs, s.slc.cmds = x :: xs → s.slc.held = [] → exec .commandFrameSent s = .next
      (({ s with slc := { s.slc with cmds := xs } } : State).restartGone x.note)) ∧
    (∀ x xs, s.slc.cmds = x :: xs → exec .commandFrameSent s = .next (finish
      (({ s with slc := { s.slc with cmds := xs } } : State).restartGone x.note |>.fillPlaces s.slc.held.length))) ∧
    (∀ x xs c cs, s.slc.cmds = x :: xs → xs.length = 31 → s.slc.held = c :: cs → c.urgent = true →
      let placed := match c with | .sweepAsk y _ => FieldCmd.sweepAsk y s.slc.lostReports | _ => c
      ∃ v : State, exec .commandFrameSent s = .next (finish v) ∧ v.slc.held = cs ∧
        v.slc.cmds = xs.takeWhile (·.cmd.urgent) ++ { cmd := placed, note := .none } :: xs.dropWhile (·.cmd.urgent))

/-- POINT sets its point of the field image and clears the stale flag; from the entry to LISTEN its block is given it:
a breaker point the Section Monitor, as BreakerReportsAreTaken says; of an alarm, door fault or intrusion point 0 is
the end of its condition and any other value raises its incident, with the point and its platform as location (R111).
While the link is LOST the point keeps its value, stale, and no report is given (log 57); a console takes none (log
83). SWEEP_BEGIN, SWEEP_END and SWEEP_WAIT_END move the sweep; in CONFIG_FAULT it stays as it is. The reason kept with
the sweep is the model's (log 41). -/
def Obligations.PointsAndSweepsAreTaken : Prop :=
  (∀ (n v : Nat) (rs : List Report) (s : State), s.Ready → s.slc.reports = .point n v :: rs →
    s.slc.link = .lost ∨ s.cfg.role = .console →
    exec .point s = .next { s with slc := { s.slc with reports := rs } }) ∧
  (∀ (n v : Nat) (rs : List Report) (s : State), s.Ready → s.slc.reports = .point n v :: rs → s.slc.link = .up →
    s.cfg.role = .station →
    let w : State := { s with slc := { s.slc with
      reports := rs, image := s.slc.image.set n { value := some v, stale := false } } }
    (s.listening = false ∨ s.pointUse n = .unassigned → exec .point s = .next w) ∧
    (∀ k, s.listening = true → s.pointUse n = .breaker k →
      exec .point s = .next (finish (w.breakerReport k v))) ∧
    let told := fun (kind : IncKind) (l : Loc) => Host.Outcome.next (finish
      (if v = 0 then w.post (.condEnd kind l)
      else w.post (.raise { kind := kind, loc := l, cover := none, severity := none, effects := none })))
    (∀ p, s.listening = true → s.pointUse n = .alarm p →
      exec .point s = told .passengerAlarm { Loc.none with platform := some p, point := some n }) ∧
    (∀ p, s.listening = true → s.pointUse n = .doorFault p →
      exec .point s = told .doorFault { Loc.none with platform := some p, point := some n }) ∧
    (∀ z, s.listening = true → s.pointUse n = .intrusion z →
      exec .point s = told .trackIntrusion { Loc.none with point := some n })) ∧
  (∀ (rs : List Report) (s : State), s.Ready → s.slc.reports = .sweepBegin :: rs → exec .sweepBegin s = .next
    (if s.cfl.start = .configFault then { s with slc := { s.slc with reports := rs } }
    else { s with slc := { s.slc with reports := rs, sweep := .sweeping, waitEnd := some (s.runTime + 100) } })) ∧
  (∀ (rs : List Report) (s : State), s.Ready → s.slc.reports = .sweepEnd :: rs →
    let u : State := { s with slc := { s.slc with reports := rs } }
    let i : State := { u with slc := { u.slc with sweep := .idle, again := false, waitEnd := none } }
    (s.slc.sweep ≠ .sweeping → exec .sweepEnd s = .next u) ∧
    (s.slc.sweep = .sweeping → s.slc.again = false → exec .sweepEnd s = .next i) ∧
    (s.slc.sweep = .sweeping → s.slc.again = true →
      exec .sweepEnd s = .next (finish (i.requestSweep s.slc.reason)))) ∧
  (∀ (t : Nat) (s : State), s.Ready → s.cfl.start ≠ .configFault → s.slc.sweep ≠ .idle → s.slc.waitEnd = some t →
    exec .sweepWaitEnd s = .next (if t ≤ s.runTime then
      let u := s.command (.sweepAsk s.slc.reason s.slc.lostReports)
      finish { u with slc := { u.slc with sweep := .asked, waitEnd := some (s.runTime + 50) } }
    else s))

/-- The workstation's orders at a console node: in any state but RUNNING the result is BUSY. In RUNNING a DIRECTIVE of
target 0 is REFUSED, one to another node is sent; PLAN_CLEAR empties the buffer, PLAN_ENTRY joins it while it has room,
PLAN_SEND sends PLAN_OPEN with its block count and remainder; while a plan is being sent these three are BUSY. But a
PLAN_ENTRY with 512 entries there is REFUSED before that is looked at, as R187 orders its tests. -/
def Obligations.WorkstationOrdersAreTaken : Prop :=
  ∀ (r : Report) (rs : List Report) (s : State), s.Ready → s.slc.reports = r :: rs →
    let u : State := { s with slc := { s.slc with reports := rs } }
    (∀ t n d, r = .directive t n d → exec .workstationDirective s = .next (finish (
      if s.cfl.start ≠ .running then u.view (.result 0 .busy)
      else if t = 0 then u.view (.result 0 .refused)
      else if t = s.cfg.node then u.takeDirective s.cfg.node n d
      else u.send t (.directive n d)))) ∧
    (r = .planClear → exec .planClear s = .next (finish (
      if s.cfl.start ≠ .running ∨ s.lbc.outPlan.isSome then u.view (.result 1 .busy)
      else ({ u with ttu := { u.ttu with launch := [] } } : State).view (.result 1 .done)))) ∧
    (∀ e, r = .planEntry e → exec .planEntry s = .next (finish (
      if s.cfl.start ≠ .running then u.view (.result 2 .busy)
      else if 512 ≤ s.ttu.launch.length then u.view (.result 2 .refused)
      else if s.lbc.outPlan.isSome then u.view (.result 2 .busy)
      else ({ u with ttu := { u.ttu with launch := s.ttu.launch ++ [{ plan := e, state := .pending }] } } : State).view
        (.result 2 .done)))) ∧
    (∀ t i, r = .planSend t i → exec .planSend s = .next (finish (
      if s.cfl.start ≠ .running ∨ s.lbc.outPlan.isSome then u.view (.result 3 .busy)
      else if s.ttu.launch = [] then u.view (.result 3 .refused)
      else
        let o : OutPlan := { target := t, planId := i, stage := .opening }
        (({ u with lbc := { u.lbc with outPlan := some o } } : State).send t
          (.planOpen i (ceilDiv s.ttu.launch.length 8) (s.ttu.launch.length % 8)) .plan).view (.result 3 .done))))

/-! ## Directives (R19 to R21, R27, R136, R157, R189, R190) -/

/-- The Directive Checker's order (R189) for a DIRECTIVE of any kind: BUSY in REBUILD; DENIED, not stored, for a sender
outside the authority table; the stored answer again for a serial answered before; REFUSED for a kind not known, DENIED
for a level too low, REFUSED for a severity or priority of 0. FIELD_QUERY is answered with the points; RESTART_NODE is
answered DONE and its warm start waits for the ANSWER. -/
def Obligations.DirectivesAreChecked : Prop :=
  ∀ (sender serial : Nat) (d : Directive) (ts : List Received) (s : State), s.Ready → s.cfg.role = .station →
    s.HeadIs { sender := sender, target := s.cfg.node, body := .directive serial d } ts →
    let u := s.withRx ts
    let answer := fun (r : AnswerResult) => ({ code := d.code, serial := serial, result := r, points := none } : AnswerBody)
    let gives := fun (v : State) => exec d.command s = .next (finish v)
    (s.cfl.start = .rebuild → gives (u.sendAnswer sender (answer .busy))) ∧
    (s.cfl.start = .running → s.consoleIndex sender = none → gives (u.sendAnswer sender (answer .denied))) ∧
    (∀ i b, s.cfl.start = .running → s.consoleIndex sender = some i → s.storedAnswer i serial = some b →
      gives (u.sendAnswer sender b)) ∧
    (∀ i c, s.cfl.start = .running → s.consoleIndex sender = some i → s.storedAnswer i serial = none →
      s.cfg.consoles[i]? = some c →
      (d.isUnknown = true → gives (u.answered i sender serial d .refused)) ∧
      (d.isUnknown = false → c.level < d.level → gives (u.answered i sender serial d .denied)) ∧
      (d.isUnknown = false → d.level ≤ c.level → d.zeroGiven = true → gives (u.answered i sender serial d .refused)) ∧
      (d = .fieldQuery → d.level ≤ c.level →
        let b : AnswerBody := { code := d.code, serial := serial, result := .done, points := some s.slc.image }
        gives ((u.storeAnswer i b).sendAnswer sender b)) ∧
      (d = .restartNode → d.level ≤ c.level → s.cfl.restart = .idle →
        let v := u.storeAnswer i (answer .done)
        gives (({ v with cfl := { v.cfl with restart := .waiting } } : State).sendAnswer sender (answer .done) .restart)))

/-- HOLD_TRAIN, RELEASE_TRAIN, WITHDRAW_RUN and INSERT_RUN act on the record they name, and are REFUSED or UNKNOWN
otherwise; an unidentified train, run 000, is named by the platform it occupies. A withdrawal of a run that no record
carries cancels its PENDING launch list entry. INSERT_RUN makes an APPROACHING record; at an occupied platform its SPARE
record takes the run, or with no record there one is made DWELLING, arrived when the platform became occupied. -/
def Obligations.DirectivesActOnRecords : Prop :=
  (∀ (sender serial i run : Nat) (p : Option Nat) (ts : List Received) (s : State),
    let u := s.withRx ts
    let flagged := fun (tag : Nat) (f : TrainRec → TrainRec) => (u.updRec tag f).post .holdRecompute
    (s.Ordered sender serial i (.holdTrain run p) ts → exec .holdTrain s = .next (finish
      (match s.named run p with
      | .record tag => (flagged tag (fun y => { y with consoleHold := true })).answered i sender serial (.holdTrain run p) .done
      | .unknown => u.answered i sender serial (.holdTrain run p) .unknown
      | .refused => u.answered i sender serial (.holdTrain run p) .refused))) ∧
    (s.Ordered sender serial i (.releaseTrain run p) ts → exec .releaseTrain s = .next (finish
      (match s.named run p with
      | .record tag =>
        (flagged tag (fun y => { y with consoleHold := false })).answered i sender serial (.releaseTrain run p) .done
      | .unknown => u.answered i sender serial (.releaseTrain run p) .unknown
      | .refused => u.answered i sender serial (.releaseTrain run p) .refused))) ∧
    (s.Ordered sender serial i (.withdrawRun run p) ts → exec .withdrawRun s = .next (finish
      (match s.named run p with
      | .record tag => (flagged tag (fun y => { y with withdraw := true })).answered i sender serial (.withdrawRun run p) .done
      | .refused => u.answered i sender serial (.withdrawRun run p) .refused
      | .unknown =>
        if s.ttu.launch.any (fun e => e.state == .pending && e.plan.run == run) then
          ({ u with ttu := { u.ttu with launch := s.ttu.launch.map (fun e =>
            if e.state == .pending && e.plan.run == run then { e with state := .cancelled } else e) } } : State).answered i
            sender serial (.withdrawRun run p) .done
        else u.answered i sender serial (.withdrawRun run p) .unknown))) ∧
    (run ≠ 0 → p = none → s.named run p = (match s.recOfRun run with | some r => .record r.tag | none => .unknown)) ∧
    (run = 0 → p = none → s.named run p = .refused) ∧
    (∀ q, run ≠ 0 → p = some q → q < s.platformCount → s.named run p =
      (match s.recOfRun run with | some r => .record r.tag | none => .unknown)) ∧
    (∀ q, run = 0 → p = some q → q < s.platformCount → s.named run p =
      (match s.occupantOf q with | some r => if r.run = 0 then .record r.tag else .unknown | none => .unknown)) ∧
    (∀ q, p = some q → s.platformCount ≤ q → s.named run p = .refused)) ∧
  (∀ (sender serial i : Nat) (a : InsertArgs) (ts : List Received) (s : State),
    s.Ordered sender serial i (.insertRun a) ts →
    let u := s.withRx ts
    let give := fun (v : State) (r : AnswerResult) => v.answered i sender serial (.insertRun a) r
    let approach := match u.createRec (insertRec a .approaching) with
      | (v, .created tag) => give (v.startWatch tag) .done
      | (v, _) => give v .refused
    let good := a.run ≠ 0 ∧ s.runCarried a.run = false
    (a.run = 0 ∨ s.runCarried a.run = true → exec .insertRun s = .next (finish (give u .refused))) ∧
    (good → a.platform = none → exec .insertRun s = .next (finish approach)) ∧
    (∀ q, good → a.platform = some q → s.platformCount ≤ q ∨ s.insertBarred a q = true →
      exec .insertRun s = .next (finish (give u .refused))) ∧
    (∀ q, good → a.platform = some q → q < s.platformCount → s.insertBarred a q = false → (s.plat q).occupied = false →
      exec .insertRun s = .next (finish approach)) ∧
    (∀ q r, good → a.platform = some q → q < s.platformCount → s.insertBarred a q = false → (s.plat q).occupied = true →
      s.occupantOf q = some r → exec .insertRun s = .next (finish (give ((u.updRec r.tag (fun x =>
        { x with run := a.run, dir := a.dir, origin := a.origin, dest := a.dest, pclass := a.pclass
                 state := .dwelling })).post (.compute q r.tag)) .done))) ∧
    (∀ q, good → a.platform = some q → q < s.platformCount → s.insertBarred a q = false → (s.plat q).occupied = true →
      s.occupantOf q = none → exec .insertRun s = .next (finish
        (match u.createRec { insertRec a .dwelling with platform := some q, aa := (s.plat q).since } with
        | (v, .created tag) =>
          give ((v.updPlat q (fun d => { d with occupant := some tag })).post (.compute q tag)) .done
        | (v, _) => give v .refused))))

/-- SET_MODE, DAY_START, ANNOUNCE and CANCEL_ANNOUNCE: the mode is set at one platform or at all; the service clock
takes the time given, up to 1,079,999, its overrun flag and trim offsets cleared and the launch list left with its
PENDING entries; the Announcement Unit is asked, with a priority up to the ceiling of the console's level (4, 5 or 7), and
its answer told. -/
def Obligations.DirectivesSetModeDayAndAnnounce : Prop :=
  ∀ (sender serial i : Nat) (ts : List Received) (s : State),
    let u := s.withRx ts
    (∀ m p, s.Ordered sender serial i (.setMode m p) ts →
      let give := fun (v : State) (r : AnswerResult) => Host.Outcome.next (finish (v.answered i sender serial (.setMode m p) r))
      let mode : RegMode := if m = 0 then .timetable else if m = 1 then .headway else .blended
      (2 < m → exec .setMode s = give u .refused) ∧
      (m ≤ 2 → p = none →
        exec .setMode s = give { u with rge := { u.rge with modes := s.rge.modes.map (fun _ => mode) } } .done) ∧
      (∀ q, m ≤ 2 → p = some q → s.platformCount ≤ q → exec .setMode s = give u .refused) ∧
      (∀ q, m ≤ 2 → p = some q → q < s.platformCount →
        exec .setMode s = give { u with rge := { u.rge with modes := s.rge.modes.set q mode } } .done)) ∧
    (∀ t, s.Ordered sender serial i (.dayStart t) ts → exec .dayStart s = .next (finish
      (if 1079999 < t then u.answered i sender serial (.dayStart t) .refused
      else ({ u with
        tiu := { u.tiu with clock := some t, overrun := false, offsets := [] }
        ttu := { u.ttu with launch := s.ttu.launch.filter (fun e => e.state == .pending) } } : State).answered i sender serial
          (.dayStart t) .done))) ∧
    (∀ a c, s.Ordered sender serial i (.announce a) ts → s.cfg.consoles[i]? = some c →
      let ceiling := if c.level = 1 then 4 else if c.level = 2 then 5 else 7
      let ok := templateOf s.cfg.announce a.template ≠ [] ∧ s.zonesOk a.zones = true ∧ a.repeatCount ≤ 7 ∧ a.interval ≤ 6000
      let x := u.takeRequest { template := a.template, priority := min a.priority ceiling, zones := a.zones, slots := a.slots,
                               repeatCount := a.repeatCount, interval := a.interval, source := .console sender, flag := none }
      (¬ok → exec .announce s = .next (finish (u.answered i sender serial (.announce a) .refused))) ∧
      (ok → exec .announce s = .next (finish
        (x.1.answered i sender serial (.announce a) (if x.2 = true then .done else .refused))))) ∧
    (∀ t l z, s.Ordered sender serial i (.cancelAnnounce t l z) ts →
      let x := u.cancelSame t l z
      exec .cancelAnnounce s = .next (finish
        (x.1.answered i sender serial (.cancelAnnounce t l z) (if x.2 = true then .done else .unknown))))
end

