-- ==== Sys2Proof/Laws/Frame.lean ====
section
/-! SUPPORT. The requests that blocks make of each other, and what they are made of, leave `State.outside` as it is: one
lemma for each operation. -/

namespace Sys2Proof.Machine

open Sys2Proof

theorem foldl_outside {α : Type} (g : State → α → State) (l : List α) (s : State)
    (h : ∀ s x, (g s x).outside = s.outside) : (l.foldl g s).outside = s.outside := by
  induction l generalizing s with
  | nil => rfl
  | cons x xs ih => exact (ih (g s x)).trans (h s x)

theorem setQueue_rx (l : Lbc) (c : TelegramClass) (q : List TxItem) : (l.setQueue c q).rx = l.rx := by cases c <;> rfl

theorem updHead_rx (l : Lbc) (c : TelegramClass) (f : TxItem → TxItem) : (l.updHead c f).rx = l.rx := by
  unfold Lbc.updHead; split <;> simp [setQueue_rx]

theorem popHead_rx (l : Lbc) (c : TelegramClass) : (l.popHead c).rx = l.rx := by simp [Lbc.popHead, setQueue_rx]

theorem atSection_outside (s : State) (id : Nat) (f : Nat → State → State) (h : ∀ k t, (f k t).outside = t.outside) :
    (s.atSection id f).outside = s.outside := by
  unfold State.atSection; split <;> simp [h]

theorem post_outside (s : State) (m : Msg) : (State.post s m).outside = s.outside := by
  grind [State.post, State.outside]

theorem posts_outside (s : State) (ms : List Msg) : (State.posts s ms).outside = s.outside := by
  grind [State.posts, State.outside]

theorem raise_outside (s : State) (k : IncKind) (l : Loc) : (State.raise s k l).outside = s.outside := by
  grind [State.raise, State.outside, post_outside]

theorem raiseOver_outside (s : State) (k : IncKind) (l : Loc) (cover : Option Span) :
    (State.raiseOver s k l cover).outside = s.outside := by
  grind [State.raiseOver, State.outside, post_outside, raise_outside]

theorem updPlat_outside (s : State) (p : Nat) (f : PlatDyn → PlatDyn) : (State.updPlat s p f).outside = s.outside := by
  grind [State.updPlat, State.outside]

theorem updCtx_outside (s : State) (p : Nat) (f : Ctx → Ctx) : (State.updCtx s p f).outside = s.outside := by
  grind [State.updCtx, State.outside]

theorem updSec_outside (s : State) (k : Nat) (f : SecDyn → SecDyn) : (State.updSec s k f).outside = s.outside := by
  grind [State.updSec, State.outside]

theorem updArb_outside (s : State) (k : Nat) (f : Arb → Arb) : (State.updArb s k f).outside = s.outside := by
  grind [State.updArb, State.outside]

theorem updAsker_outside (s : State) (p : Nat) (f : Asker → Asker) : (State.updAsker s p f).outside = s.outside := by
  grind [State.updAsker, State.outside]

theorem updHoeDir_outside (s : State) (d : Dir) (f : HoeDir → HoeDir) : (State.updHoeDir s d f).outside = s.outside :=
    by
  unfold State.updHoeDir; split <;> grind [State.outside]

theorem updRec_outside (s : State) (tag : Nat) (f : TrainRec → TrainRec) : (State.updRec s tag f).outside =
    s.outside := by
  grind [State.updRec, State.outside]

theorem moveRec_outside (s : State) (tag : Nat) (leave enter : TrainState) :
    (State.moveRec s tag leave enter).outside = s.outside := by
  grind [State.moveRec, State.outside, updRec_outside]

theorem updChan_outside (s : State) (i : Nat) (f : Channel → Channel) : (State.updChan s i f).outside = s.outside := by
  grind [State.updChan, State.outside]

theorem updPlace_outside (s : State) (i : Nat) (f : CoarsePlace → CoarsePlace) : (State.updPlace s i f).outside =
    s.outside := by
  grind [State.updPlace, State.outside]

theorem grantChannel_outside (s : State) (i : Nat) (o : TimerOwner) (n : Nat) (mark : Option Nat) (periodic : Bool) :
    (State.grantChannel s i o n mark periodic).1.outside = s.outside := by
  grind [State.grantChannel, State.outside, updChan_outside]

theorem grantPair_outside (s : State) (i : Nat) (o : TimerOwner) (n : Nat) : (State.grantPair s i o n).1.outside =
    s.outside := by
  grind [State.grantPair, State.outside, updChan_outside]

theorem grantPlace_outside (s : State) (i : Nat) (o : TimerOwner) (n : Nat) : (State.grantPlace s i o n).1.outside =
    s.outside := by
  grind [State.grantPlace, State.outside, updPlace_outside]

theorem refuseTimer_outside (s : State) : (State.refuseTimer s).1.outside = s.outside := by
  grind [State.refuseTimer, State.outside, raise_outside]

theorem requestCoarse_outside (s : State) (o : TimerOwner) (n : Nat) (mark : Option Nat) (periodic : Bool) :
    (State.requestCoarse s o n mark periodic).1.outside = s.outside := by
  grind [State.requestCoarse, State.outside, grantPlace_outside, refuseTimer_outside]

theorem requestTimer_outside (s : State) (o : TimerOwner) (n : Nat) (mark : Option Nat) (periodic : Bool) :
    (State.requestTimer s o n mark periodic).1.outside = s.outside := by
  grind [State.requestTimer, State.outside, grantChannel_outside, grantPair_outside, refuseTimer_outside,
      requestCoarse_outside]

theorem updPairOf_outside (s : State) (i : Nat) (f : Channel → Channel) : (State.updPairOf s i f).outside =
    s.outside := by
  grind [State.updPairOf, State.outside, updChan_outside]

theorem stopTimer_outside (s : State) (h : Handle) : (State.stopTimer s h).outside = s.outside := by
  grind [State.stopTimer, State.outside, updPlace_outside, updPairOf_outside]

theorem resumeTimer_outside (s : State) (h : Handle) : (State.resumeTimer s h).outside = s.outside := by
  grind [State.resumeTimer, State.outside, updPlace_outside, updPairOf_outside]

theorem expireNow_outside (s : State) (i : Nat) : (State.expireNow s i).outside = s.outside := by
  grind [State.expireNow, State.outside, post_outside]

theorem loadHeld_outside (s : State) (i n : Nat) (mark : Option Nat) (periodic : Bool) :
    (State.loadHeld s i n mark periodic).outside = s.outside := by
  grind [State.loadHeld, State.outside, updChan_outside]

theorem reloadTimer_outside (s : State) (h : Handle) (n : Nat) (mark : Option Nat) (periodic : Bool) :
    (State.reloadTimer s h n mark periodic).outside = s.outside := by
  grind [State.reloadTimer, State.outside, expireNow_outside, loadHeld_outside, updPlace_outside]

theorem endExhaustion_outside (s : State) : (State.endExhaustion s).outside = s.outside := by
  grind [State.endExhaustion, State.outside, post_outside]

theorem releaseTimer_outside (s : State) (h : Handle) : (State.releaseTimer s h).outside = s.outside := by
  grind [State.releaseTimer, State.outside, updPlace_outside, updPairOf_outside, endExhaustion_outside]

theorem releaseOpt_outside (s : State) (h : Option Handle) : (State.releaseOpt s h).outside = s.outside := by
  unfold State.releaseOpt; split <;> grind [State.outside, releaseTimer_outside]

theorem loadDwell_outside (s : State) (p n : Nat) (mark : Option Nat) : (State.loadDwell s p n mark).outside =
    s.outside := by
  grind [State.loadDwell, State.outside, updChan_outside]

theorem stopDwell_outside (s : State) (p : Nat) : (State.stopDwell s p).outside = s.outside := by
  grind [State.stopDwell, State.outside, updChan_outside]

theorem takeMark_outside (s : State) (p : Nat) : (State.takeMark s p).outside = s.outside := by
  grind [State.takeMark, State.outside, updChan_outside]

theorem takeDwellExpiry_outside (s : State) (p : Nat) : (State.takeDwellExpiry s p).outside = s.outside := by
  grind [State.takeDwellExpiry, State.outside, updChan_outside]

theorem startStatusPeriod_outside (s : State) : (State.startStatusPeriod s).outside = s.outside := by
  grind [State.startStatusPeriod, State.outside, updChan_outside]

theorem keepOffset_outside (s : State) (sender : Nat) (b : StatusBody) (stamp : Option Nat) :
    (State.keepOffset s sender b stamp).outside = s.outside := by
  unfold State.keepOffset; (repeat' split) <;> grind [State.outside]

theorem stepDrops_outside (s : State) : (State.stepDrops s).outside = s.outside := by
  grind [State.stepDrops, State.outside]

theorem stepDiscards_outside (s : State) : (State.stepDiscards s).outside = s.outside := by
  grind [State.stepDiscards, State.outside]

theorem stepOverruns_outside (s : State) : (State.stepOverruns s).outside = s.outside := by
  grind [State.stepOverruns, State.outside]

theorem restartGone_outside (s : State) (n : TxNote) : (State.restartGone s n).outside = s.outside := by
  unfold State.restartGone; split <;> grind [State.outside]

theorem noteDropped_outside (s : State) (n : TxNote) : (State.noteDropped s n).outside = s.outside := by
  unfold State.noteDropped; split <;> grind [State.outside, restartGone_outside]

theorem joinQueue_outside (s : State) (x : TxItem) : (State.joinQueue s x).outside = s.outside := by
  unfold State.joinQueue; grind [State.outside, setQueue_rx, stepDrops_outside, noteDropped_outside]

theorem placeTelegram_outside (s : State) (x : TxItem) : (State.placeTelegram s x).outside = s.outside := by
  grind [State.placeTelegram, State.outside, joinQueue_outside]

theorem hand_outside (s : State) (tg : Telegram) (note : TxNote) (probe : Bool) :
    (State.hand s tg note probe).outside = s.outside := by
  grind [State.hand, State.outside, stepDrops_outside, noteDropped_outside, placeTelegram_outside]

theorem send_outside (s : State) (target : Nat) (b : Body) (note : TxNote) : (State.send s target b note).outside =
    s.outside := by
  grind [State.send, State.outside, hand_outside]

theorem lineBit_outside (s : State) (m : Nat) : (State.lineBit s m).outside = s.outside := by
  grind [State.lineBit, State.outside]

theorem raiseLineFault_outside (s : State) : (State.raiseLineFault s).outside = s.outside := by
  grind [State.raiseLineFault, State.outside, raise_outside]

theorem endLineFault_outside (s : State) : (State.endLineFault s).outside = s.outside := by
  grind [State.endLineFault, State.outside, post_outside]

theorem attemptDrop_outside (s : State) : (State.attemptDrop s).outside = s.outside := by
  grind [State.attemptDrop, State.outside, stepDrops_outside, raiseLineFault_outside]

theorem dropAll_outside (s : State) (q : List TxItem) : (State.dropAll s q).outside = s.outside := by
  exact foldl_outside _ _ _ (fun s x => by (repeat' split) <;> grind [State.outside, stepDrops_outside,
      noteDropped_outside])

theorem enterMute_outside (s : State) : (State.enterMute s).outside = s.outside := by
  grind [State.enterMute, State.outside, raiseLineFault_outside, dropAll_outside]

theorem echoHeard_outside (s : State) : (State.echoHeard s).outside = s.outside := by
  grind [State.echoHeard, State.outside, endLineFault_outside]

theorem beginSending_outside (s : State) (c : TelegramClass) (m : Nat) :
    (State.beginSending s c m).outside = s.outside := by
  grind [State.beginSending, State.outside, updHead_rx]

theorem endSending_outside (s : State) : (State.endSending s).outside = s.outside := by
  grind [State.endSending, State.outside]

theorem backOff_outside (s : State) (c : TelegramClass) : (State.backOff s c).outside = s.outside := by
  unfold State.backOff; (repeat' split) <;> grind [State.outside, popHead_rx, updHead_rx, attemptDrop_outside,
      noteDropped_outside]

theorem transmit_outside (s : State) (m quiet : Nat) (echoed : Bool) : (State.transmit s m quiet echoed).outside =
    s.outside := by
  grind [State.transmit, State.outside, lineBit_outside, echoHeard_outside, beginSending_outside]

theorem handStage_outside (s : State) (o : OutPlan) : (State.handStage s o).outside = s.outside := by
  grind [State.handStage, State.outside, send_outside]

theorem planSent_outside (s : State) : (State.planSent s).outside = s.outside := by
  grind [State.planSent, State.outside, handStage_outside]

theorem noteSent_outside (s : State) (n : TxNote) : (State.noteSent s n).outside = s.outside := by
  unfold State.noteSent; split <;> grind [State.outside, restartGone_outside, planSent_outside]

theorem sentWhole_outside (s : State) (m : Nat) : (State.sentWhole s m).outside = s.outside := by
  unfold State.sentWhole; dsimp only; (repeat' split) <;> grind [State.outside, popHead_rx, endSending_outside,
      echoHeard_outside, lineBit_outside, noteSent_outside]

theorem collide_outside (s : State) (m : Nat) : (State.collide s m).outside = s.outside := by
  grind [State.collide, State.outside, lineBit_outside, echoHeard_outside, endSending_outside, backOff_outside]

theorem faultEcho_outside (s : State) : (State.faultEcho s).outside = s.outside := by
  unfold State.faultEcho; dsimp only; (repeat' split) <;> grind [State.outside, popHead_rx, endSending_outside,
      backOff_outside, enterMute_outside]

theorem initWatched_outside (s : State) : (State.initWatched s).outside = s.outside := by
  grind [State.initWatched, State.outside]

theorem updWatch_outside (s : State) (n : Nat) (f : Watched → Watched) : (State.updWatch s n f).outside = s.outside :=
    by
  grind [State.updWatch, State.outside]

theorem endTransfer_outside (s : State) (r : PlanResult) : (State.endTransfer s r).outside = s.outside := by
  grind [State.endTransfer, State.outside]

theorem placeBy_outside (s : State) (place : CmdItem → List CmdItem → List CmdItem) (c : FieldCmd) (note : TxNote) :
    (State.placeBy s place c note).outside = s.outside := by
  unfold State.placeBy; split <;> grind [State.outside]

theorem placeCommand_outside (s : State) (c : FieldCmd) (note : TxNote) : (State.placeCommand s c note).outside =
    s.outside := placeBy_outside s placeCmd c note

theorem command_outside (s : State) (c : FieldCmd) : (State.command s c).outside = s.outside := by
  grind [State.command, State.outside, placeCommand_outside]

theorem fillPlaces_outside (x0 : Nat) (x1 : State) : (State.fillPlaces x0 x1).outside = x1.outside := by
  induction x0 generalizing x1 with
  | zero => rfl
  | succ n ih =>
    unfold State.fillPlaces; (repeat' split) <;> grind [State.outside, placeBy_outside]

theorem commandSent_outside (s : State) : (State.commandSent s).outside = s.outside := by
  grind [State.commandSent, State.outside, restartGone_outside, fillPlaces_outside]

theorem view_outside (s : State) (v : ViewContent) (note : TxNote) : (State.view s v note).outside = s.outside := by
  grind [State.view, State.outside, restartGone_outside, placeCommand_outside]

theorem authorityOff_outside (s : State) (p : Nat) : (State.authorityOff s p).outside = s.outside := by
  grind [State.authorityOff, State.outside, command_outside]

theorem askSweep_outside (s : State) : (State.askSweep s).outside = s.outside := by
  grind [State.askSweep, State.outside, command_outside]

theorem requestSweep_outside (s : State) (r : SweepReason) : (State.requestSweep s r).outside = s.outside := by
  grind [State.requestSweep, State.outside, askSweep_outside]

theorem beginSweep_outside (s : State) : (State.beginSweep s).outside = s.outside := by
  grind [State.beginSweep, State.outside]

theorem endSweep_outside (s : State) : (State.endSweep s).outside = s.outside := by
  grind [State.endSweep, State.outside, requestSweep_outside]

theorem sweepOverdue_outside (s : State) : (State.sweepOverdue s).outside = s.outside := by
  grind [State.sweepOverdue, State.outside, askSweep_outside]

theorem restoreLink_outside (s : State) : (State.restoreLink s).outside = s.outside := by
  grind [State.restoreLink, State.outside, post_outside, requestSweep_outside]

theorem updQueue_outside (s : State) (k : Nat) (f : List QueuedAsk → List QueuedAsk) : (State.updQueue s k f).outside =
    s.outside := by
  grind [State.updQueue, State.outside, updArb_outside]

theorem updCounted_outside (s : State) (k : Nat) (f : List Counted → List Counted) : (State.updCounted s k f).outside =
    s.outside := by
  grind [State.updCounted, State.outside, updArb_outside]

theorem updTaken_outside (s : State) (k : Nat) (f : List Taken → List Taken) : (State.updTaken s k f).outside =
    s.outside := by
  grind [State.updTaken, State.outside, updArb_outside]

theorem answerOwn_outside (s : State) (k : Nat) (a : QueuedAsk) : (State.answerOwn s k a).outside = s.outside := by
  grind [State.answerOwn, State.outside, post_outside, updAsker_outside, updTaken_outside]

theorem raiseOverride_outside (s : State) (k : Nat) (wanted : Bool) : (State.raiseOverride s k wanted).outside =
    s.outside := by
  grind [State.raiseOverride, State.outside, raiseOver_outside]

theorem grantAsk_outside (s : State) (k : Nat) (a : QueuedAsk) : (State.grantAsk s k a).outside = s.outside := by
  grind [State.grantAsk, State.outside, send_outside, updQueue_outside, updCounted_outside, answerOwn_outside,
      raiseOverride_outside]

theorem reevaluateN_outside (x0 : Nat) (x1 : Nat) (x2 : State) : (State.reevaluateN x0 x1 x2).outside = x2.outside := by
  induction x0 generalizing x2 with
  | zero => rfl
  | succ n ih => unfold State.reevaluateN; (repeat' split) <;> grind [grantAsk_outside]

theorem reevaluate_outside (s : State) (k : Nat) : (State.reevaluate s k).outside = s.outside := by
  grind [State.reevaluate, State.outside, reevaluateN_outside]

theorem joinAsk_outside (s : State) (k p : Nat) : (State.joinAsk s k p).outside = s.outside := by
  grind [State.joinAsk, updAsker_outside, updQueue_outside]

theorem presentAsk_outside (s : State) (k p : Nat) : (State.presentAsk s k p).outside = s.outside := by
  grind [State.presentAsk, post_outside, joinAsk_outside, reevaluate_outside]

theorem sendAsk_outside (s : State) (k p : Nat) : (State.sendAsk s k p).outside = s.outside := by
  grind [State.sendAsk, State.outside, updAsker_outside, send_outside]

theorem askAgain_outside (s : State) (p : Nat) : (State.askAgain s p).outside = s.outside := by
  grind [State.askAgain, State.outside, post_outside, sendAsk_outside]

theorem presentAgain_outside (s : State) (p : Nat) : (State.presentAgain s p).outside = s.outside := by
  grind [State.presentAgain, State.outside, presentAsk_outside, sendAsk_outside]

theorem withdrawAsk_outside (s : State) (k p : Nat) : (State.withdrawAsk s k p).outside = s.outside := by
  grind [State.withdrawAsk, State.outside, updQueue_outside, reevaluate_outside]

theorem cancelAsk_outside (s : State) (p : Nat) : (State.cancelAsk s p).outside = s.outside := by
  unfold State.cancelAsk; dsimp only; split
  · exact (atSection_outside _ _ _ (fun k t => by grind [withdrawAsk_outside])).trans (updAsker_outside ..)
  · exact (atSection_outside _ _ _ (fun k t => by grind [send_outside])).trans (updAsker_outside ..)
  all_goals exact updAsker_outside ..

theorem uncount_outside (s : State) (k p serial : Nat) : (State.uncount s k p serial).outside = s.outside := by
  grind [State.uncount, State.outside, updCounted_outside, reevaluate_outside]

theorem untake_outside (s : State) (k p serial : Nat) (origin : Route) :
    (State.untake s k p serial origin).outside = s.outside := by
  grind [State.untake, State.outside, updTaken_outside]

theorem returnGrant_outside (s : State) (p serial : Nat) (origin : Route) (id : Nat) :
    (State.returnGrant s p serial origin id).outside = s.outside := by
  unfold State.returnGrant; dsimp only
  refine (atSection_outside _ _ _ (fun k t => ?_)).trans (by grind [updAsker_outside])
  cases origin <;> grind [uncount_outside, untake_outside, send_outside]

theorem returnHeld_outside (s : State) (p : Nat) : (State.returnHeld s p).outside = s.outside := by
  grind [State.returnHeld, State.outside, returnGrant_outside]

theorem keepStart_outside (s : State) (p : Nat) : (State.keepStart s p).outside = s.outside := by
  grind [State.keepStart, State.outside, updAsker_outside]

theorem endAsk_outside (s : State) (p : Nat) : (State.endAsk s p).outside = s.outside := by
  grind [State.endAsk, State.outside, cancelAsk_outside, returnHeld_outside]

theorem startAsk_outside (s : State) (p id serial : Nat) (ready : Option Nat) (demand credit : Nat) :
    (State.startAsk s p id serial ready demand credit).outside = s.outside := by
  grind [State.startAsk, State.outside, updAsker_outside, presentAsk_outside, sendAsk_outside, endAsk_outside]

theorem overrideAsk_outside (s : State) (p : Nat) : (State.overrideAsk s p).outside = s.outside := by
  unfold State.overrideAsk; dsimp only; split
  · exact (atSection_outside _ _ _ (fun k t => by grind [updQueue_outside,
      reevaluate_outside])).trans (updAsker_outside ..)
  · exact (atSection_outside _ _ _ (fun k t => by grind [sendAsk_outside])).trans (updAsker_outside ..)
  all_goals first | exact updAsker_outside .. | rfl

theorem countedEnd_outside (s : State) (k : Nat) : (State.countedEnd s k).outside = s.outside := by
  grind [State.countedEnd, State.outside, updCounted_outside, reevaluate_outside]

theorem takenEnd_outside (s : State) (k : Nat) : (State.takenEnd s k).outside = s.outside := by
  grind [State.takenEnd, State.outside, updTaken_outside]

theorem unheardAsk_outside (s : State) (k : Nat) : (State.unheardAsk s k).outside = s.outside := by
  grind [State.unheardAsk, State.outside, updQueue_outside, reevaluate_outside]

theorem answerQueued_outside (s : State) (k node : Nat) (b : PowerAskBody) : (State.answerQueued s k node b).outside =
    s.outside := by
  grind [State.answerQueued, State.outside, send_outside]

theorem ownerAsk_outside (s : State) (k node : Nat) (b : PowerAskBody) : (State.ownerAsk s k node b).outside =
    s.outside := by
  grind [State.ownerAsk, State.outside, send_outside, updQueue_outside, reevaluate_outside, answerQueued_outside]

theorem ownerReturn_outside (s : State) (k node p serial : Nat) : (State.ownerReturn s k node p serial).outside =
    s.outside := by
  grind [State.ownerReturn, State.outside, updQueue_outside, updCounted_outside, reevaluate_outside]

theorem askerGrant_outside (s : State) (k id p serial : Nat) : (State.askerGrant s k id p serial).outside =
    s.outside := by
  grind [State.askerGrant, State.outside, post_outside, updAsker_outside, updTaken_outside, withdrawAsk_outside]

theorem askerDefer_outside (s : State) (id p serial : Nat) : (State.askerDefer s id p serial).outside = s.outside := by
  grind [State.askerDefer, State.outside, post_outside, updAsker_outside]

theorem setRoute_outside (s : State) (p : Nat) (route : Route) : (State.setRoute s p route).outside = s.outside := by
  grind [State.setRoute, State.outside, updAsker_outside]

theorem moveAsks_outside (s : State) (k : Nat) (ps : List Nat) : (State.moveAsks s k ps).outside = s.outside :=
  foldl_outside _ _ _ (fun s x => by grind [setRoute_outside, joinAsk_outside])

theorem beginStandIn_outside (s : State) (k : Nat) : (State.beginStandIn s k).outside = s.outside := by
  grind [State.beginStandIn, posts_outside, reevaluate_outside, moveAsks_outside, updArb_outside]

theorem endStandIn_outside (s : State) (k : Nat) : (State.endStandIn s k).outside = s.outside := by
  unfold State.endStandIn; dsimp only; split
  · exact (foldl_outside _ _ _ (fun s x => by grind [setRoute_outside])).trans
      ((foldl_outside _ _ _ (fun s x => by grind [setRoute_outside, sendAsk_outside])).trans (updArb_outside ..))
  · rfl

theorem setSecState_outside (s : State) (k : Nat) (st : Option SectionState) : (State.setSecState s k st).outside =
    s.outside := by
  grind [State.setSecState, State.outside, post_outside, updSec_outside]

theorem dropSecTimer_outside (s : State) (k : Nat) : (State.dropSecTimer s k).outside = s.outside := by
  grind [State.dropSecTimer, State.outside, updSec_outside, releaseOpt_outside]

theorem askSecTimer_outside (s : State) (k n : Nat) : (State.askSecTimer s k n).1.outside = s.outside := by
  grind [State.askSecTimer, State.outside, updSec_outside, requestTimer_outside]

theorem breaker_outside (s : State) (k : Nat) (close : Bool) : (State.breaker s k close).outside = s.outside := by
  grind [State.breaker, State.outside, command_outside]

theorem raiseSection_outside (s : State) (k : Nat) (kind : IncKind) : (State.raiseSection s k kind).outside =
    s.outside := by
  grind [State.raiseSection, State.outside, raiseOver_outside]

theorem endSection_outside (s : State) (k : Nat) (kind : IncKind) : (State.endSection s k kind).outside = s.outside :=
    by
  grind [State.endSection, State.outside, post_outside]

theorem lockOut_outside (s : State) (k : Nat) : (State.lockOut s k).outside = s.outside := by
  grind [State.lockOut, State.outside, setSecState_outside, dropSecTimer_outside, raiseSection_outside]

theorem energize_outside (s : State) (k : Nat) : (State.energize s k).outside = s.outside := by
  grind [State.energize, State.outside, setSecState_outside, dropSecTimer_outside, endSection_outside]

theorem isolate_outside (s : State) (k : Nat) : (State.isolate s k).outside = s.outside := by
  grind [State.isolate, State.outside, updSec_outside, setSecState_outside, dropSecTimer_outside, breaker_outside]

theorem goodGate_outside (s : State) (k n : Nat) (c : SectionCfg) : (State.goodGate s k n c).outside = s.outside := by
  grind [State.goodGate, State.outside, updSec_outside, endSection_outside]

theorem badGate_outside (s : State) (k : Nat) : (State.badGate s k).outside = s.outside := by
  grind [State.badGate, State.outside, updSec_outside, raiseSection_outside]

theorem completeGate_outside (s : State) (k n : Nat) (c : SectionCfg) : (State.completeGate s k n c).outside =
    s.outside := by
  grind [State.completeGate, State.outside, reevaluate_outside, goodGate_outside, badGate_outside]

theorem startGates_outside (s : State) : (State.startGates s).outside = s.outside := by
  exact foldl_outside _ _ _ (fun s x => by (repeat' split) <;> grind [State.outside, updSec_outside])

theorem closedReport_outside (s : State) (k : Nat) : (State.closedReport s k).outside = s.outside := by
  grind [State.closedReport, State.outside, updSec_outside, breaker_outside, energize_outside]

theorem trip_outside (s : State) (k : Nat) : (State.trip s k).outside = s.outside := by
  grind [State.trip, State.outside, updSec_outside, setSecState_outside, askSecTimer_outside, raiseSection_outside,
      lockOut_outside]

theorem openReport_outside (s : State) (k : Nat) : (State.openReport s k).outside = s.outside := by
  grind [State.openReport, State.outside, updSec_outside, setSecState_outside, trip_outside]

theorem breakerReport_outside (s : State) (k v : Nat) : (State.breakerReport s k v).outside = s.outside := by
  unfold State.breakerReport; split <;> grind [State.outside, closedReport_outside, openReport_outside]

theorem commandClose_outside (s : State) (k : Nat) (st : SectionState) : (State.commandClose s k st).outside =
    s.outside := by
  grind [State.commandClose, State.outside, setSecState_outside, breaker_outside, closedReport_outside]

theorem reclose_outside (s : State) (k : Nat) : (State.reclose s k).outside = s.outside := by
  grind [State.reclose, State.outside, updSec_outside, dropSecTimer_outside, askSecTimer_outside, lockOut_outside,
      commandClose_outside]

theorem checkCuts_outside (s : State) : (State.checkCuts s).outside = s.outside := by
  exact foldl_outside _ _ _ (fun s x => by (repeat' split) <;> grind [State.outside, isolate_outside])

theorem firstBreakerReports_outside (s : State) : (State.firstBreakerReports s).outside = s.outside := by
  exact foldl_outside _ _ _ (fun s x => by (repeat' split) <;> grind [State.outside, closedReport_outside,
      openReport_outside])

theorem isolateDirective_outside (s : State) (id : Nat) : (State.isolateDirective s id).1.outside = s.outside := by
  grind [State.isolateDirective, State.outside, isolate_outside]

theorem restoreDirective_outside (s : State) (id : Nat) : (State.restoreDirective s id).1.outside = s.outside := by
  grind [State.restoreDirective, State.outside, askSecTimer_outside, commandClose_outside]

theorem mirrorEntry_outside (s : State) (k : Nat) (e : SectionEntry) : (State.mirrorEntry s k e).outside = s.outside :=
    by
  grind [State.mirrorEntry, State.outside, updSec_outside, setSecState_outside]

theorem updateMirrors_outside (s : State) (sender : Nat) (b : StatusBody) : (State.updateMirrors s sender b).outside =
    s.outside := by
  exact foldl_outside _ _ _ (fun s x => by (repeat' split) <;> grind [State.outside, mirrorEntry_outside])

theorem staleMirrors_outside (s : State) (n : Nat) : (State.staleMirrors s n).outside = s.outside := by
  exact foldl_outside _ _ _ (fun s x => by (repeat' split) <;> grind [State.outside, updSec_outside])

theorem createRec_outside (s : State) (r : TrainRec) : (State.createRec s r).1.outside = s.outside := by
  grind [State.createRec, State.outside]

theorem removeRec_outside (s : State) (tag : Nat) : (State.removeRec s tag).outside = s.outside := by
  grind [State.removeRec, State.outside, post_outside]

theorem convert_outside (s : State) (p tag : Nat) : (State.convert s p tag).outside = s.outside := by
  unfold State.convert; dsimp only; split
  · rfl
  · have h :=
      foldl_outside (fun (s : State) run => s.raise .runConflict (Loc.ofRunAt run p)) (useLaunch (fun run => s.runCarriedByOther run tag) p s.ttu.launch).2.2
      { s with ttu := { s.ttu with launch := (useLaunch (fun run => s.runCarriedByOther run tag) p s.ttu.launch).1 } }
      (fun s x => raise_outside ..)
    have h2 : ∀ (t : Ttu), ({ s with ttu := t } : State).outside = s.outside := fun t => rfl
    (repeat' split) <;> grind [post_outside, updRec_outside]

theorem occupy_outside (s : State) (p : Nat) (stamp : Option Nat) : (State.occupy s p stamp).outside = s.outside := by
  grind [State.occupy, State.outside, updPlat_outside]

theorem vacate_outside (s : State) (p : Nat) : (State.vacate s p).outside = s.outside := by
  grind [State.vacate, State.outside, updPlat_outside]

theorem setOccupant_outside (s : State) (p : Nat) (tag : Option Nat) : (State.setOccupant s p tag).outside =
    s.outside := by
  grind [State.setOccupant, State.outside, updPlat_outside]

theorem takeBerth_outside (s : State) (p : Nat) (c : PlatformCfg) (r : TrainRec) (stamp : Option Nat) :
    (State.takeBerth s p c r stamp).outside = s.outside := by
  grind [State.takeBerth, State.outside, post_outside, updRec_outside, moveRec_outside, convert_outside,
      setOccupant_outside]

theorem unknownArrival_outside (s : State) (p : Nat) (c : PlatformCfg) (aa : Option Nat) :
    (State.unknownArrival s p c aa).outside = s.outside := by
  grind [State.unknownArrival, State.outside, raise_outside, createRec_outside, convert_outside, setOccupant_outside]

theorem riseAt_outside (s : State) (p : Nat) (stamp : Option Nat) : (State.riseAt s p stamp).outside = s.outside := by
  grind [State.riseAt, State.outside, occupy_outside, takeBerth_outside, unknownArrival_outside]

theorem firstBerthLevel_outside (s : State) (p : Nat) (active : Bool) (stamp : Option Nat) :
    (State.firstBerthLevel s p active stamp).outside = s.outside := by
  grind [State.firstBerthLevel, State.outside, occupy_outside, vacate_outside, riseAt_outside]

theorem stage_outside (s : State) (e : PlanEntry) : (State.stage s e).outside = s.outside := by
  grind [State.stage, State.outside]

theorem clearStaging_outside (s : State) : (State.clearStaging s).outside = s.outside := by
  grind [State.clearStaging, State.outside]

theorem applyStaging_outside (s : State) : (State.applyStaging s).1.outside = s.outside := by
  grind [State.applyStaging, State.outside]

theorem purgeLaunch_outside (s : State) : (State.purgeLaunch s).outside = s.outside := by
  grind [State.purgeLaunch, State.outside]

theorem stepAnnDropped_outside (s : State) (k : Nat) : (State.stepAnnDropped s k).outside = s.outside := by
  grind [State.stepAnnDropped, State.outside]

theorem stepMuted_outside (s : State) : (State.stepMuted s).outside = s.outside := by
  grind [State.stepMuted, State.outside]

theorem dropWake_outside (s : State) : (State.dropWake s).outside = s.outside := by
  grind [State.dropWake, State.outside, releaseOpt_outside]

theorem displaceLast_outside (s : State) : (State.displaceLast s).outside = s.outside := by
  grind [State.displaceLast, State.outside, stepAnnDropped_outside]

theorem annPlace_outside (s t : State) (n : Nat) (h : State.annPlace s n = some t) : t.outside = s.outside := by
  grind [State.annPlace, displaceLast_outside]

theorem putRequest_outside (s : State) (r : Request) : (State.putRequest s r).outside = s.outside := by
  grind [State.putRequest, State.outside]

theorem enqueue_outside (s : State) (r : Request) : (State.enqueue s r).1.outside = s.outside := by
  unfold State.enqueue
  split
  · rename_i h
    exact (dropWake_outside ..).trans ((putRequest_outside ..).trans (annPlace_outside _ _ _ h))
  · exact stepAnnDropped_outside ..

theorem dropWaiting_outside (s : State) : (State.dropWaiting s).outside = s.outside := by
  grind [State.dropWaiting, State.outside, stepAnnDropped_outside]

theorem askWake_outside (s : State) (t : Nat) : (State.askWake s t).outside = s.outside := by
  grind [State.askWake, State.outside, requestTimer_outside, dropWaiting_outside]

theorem wakeFor_outside (s : State) (t : Nat) : (State.wakeFor s t).outside = s.outside := by
  grind [State.wakeFor, State.outside, reloadTimer_outside, askWake_outside]

theorem wakeExpired_outside (s : State) : (State.wakeExpired s).outside = s.outside := by
  grind [State.wakeExpired, State.outside, post_outside, releaseOpt_outside, askWake_outside]

theorem compose_outside (s : State) : (State.compose s).outside = s.outside := by
  grind [State.compose, State.outside]

theorem startRequest_outside (s : State) (r : Request) : (State.startRequest s r).outside = s.outside := by
  grind [State.startRequest, State.outside, post_outside, compose_outside]

theorem resumeTop_outside (s : State) (r : Request) : (State.resumeTop s r).outside = s.outside := by
  grind [State.resumeTop, State.outside, startRequest_outside]

theorem startHead_outside (s : State) (r : Request) : (State.startHead s r).outside = s.outside := by
  grind [State.startHead, State.outside, startRequest_outside]

theorem select_outside (s : State) : (State.select s).outside = s.outside := by
  grind [State.select, State.outside, resumeTop_outside, startHead_outside]

theorem leaveSlot_outside (s : State) : (State.leaveSlot s).outside = s.outside := by
  grind [State.leaveSlot, State.outside, releaseOpt_outside]

theorem endCancelled_outside (s : State) : (State.endCancelled s).outside = s.outside := by
  grind [State.endCancelled, State.outside, post_outside, select_outside, leaveSlot_outside]

theorem finishRequest_outside (s : State) (r : Request) : (State.finishRequest s r).outside = s.outside := by
  grind [State.finishRequest, State.outside, post_outside, enqueue_outside, wakeFor_outside, select_outside,
      leaveSlot_outside]

theorem preempt_outside (s : State) (r h : Request) : (State.preempt s r h).outside = s.outside := by
  grind [State.preempt, State.outside, stepAnnDropped_outside, startRequest_outside]

theorem boundary_outside (s : State) : (State.boundary s).outside = s.outside := by
  grind [State.boundary, State.outside, post_outside, select_outside, endCancelled_outside, finishRequest_outside,
      preempt_outside]

theorem reloadPlayer_outside (s : State) (n : Nat) : (State.reloadPlayer s n).outside = s.outside := by
  grind [State.reloadPlayer, reloadTimer_outside]

theorem loadPlayer_outside (s : State) (n : Nat) : (State.loadPlayer s n).outside = s.outside := by
  grind [State.loadPlayer, State.outside, requestTimer_outside, releaseOpt_outside]

theorem releasePlayer_outside (s : State) : (State.releasePlayer s).outside = s.outside := by
  grind [State.releasePlayer, State.outside, releaseOpt_outside]

theorem refill_outside (s : State) : (State.refill s).outside = s.outside := by
  grind [State.refill, State.outside, compose_outside]

theorem sendPhrase_outside (s : State) (r : Request) (p : Phrase) : (State.sendPhrase s r p).outside = s.outside := by
  grind [State.sendPhrase, State.outside, loadPlayer_outside, refill_outside]

theorem discardPhrase_outside (s : State) : (State.discardPhrase s).outside = s.outside := by
  grind [State.discardPhrase, State.outside, post_outside, stepMuted_outside, boundary_outside, refill_outside]

theorem pump_outside (s : State) : (State.pump s).outside = s.outside := by
  grind [State.pump, State.outside, finishRequest_outside, loadPlayer_outside, sendPhrase_outside,
      discardPhrase_outside]

theorem phraseDone_outside (s : State) (next : PlayerState) : (State.phraseDone s next).outside = s.outside := by
  grind [State.phraseDone, State.outside, post_outside, boundary_outside, releasePlayer_outside]

theorem playerMute_outside (s : State) : (State.playerMute s).outside = s.outside := by
  grind [State.playerMute, State.outside, raise_outside]

theorem playerExpired_outside (s : State) : (State.playerExpired s).outside = s.outside := by
  grind [State.playerExpired, State.outside, post_outside, stepMuted_outside, releasePlayer_outside, pump_outside,
      phraseDone_outside, playerMute_outside]

theorem mergeQueued_outside (s : State) (r : Request) (q : AnnReq) : (State.mergeQueued s r q).outside = s.outside := by
  grind [State.mergeQueued, State.outside, post_outside, dropWake_outside, select_outside]

theorem mergeSuspended_outside (s : State) (r : Request) (q : AnnReq) : (State.mergeSuspended s r q).outside =
    s.outside := by
  grind [State.mergeSuspended, State.outside, post_outside, enqueue_outside, select_outside]

theorem mergePlaying_outside (s : State) (r : Request) (q : AnnReq) : (State.mergePlaying s r q).outside = s.outside :=
    by
  grind [State.mergePlaying, State.outside, compose_outside]

theorem joinNew_outside (s : State) (q : AnnReq) : (State.joinNew s q).outside = s.outside := by
  grind [State.joinNew, State.outside, putRequest_outside]

theorem joinRequest_outside (s : State) (q : AnnReq) : (State.joinRequest s q).1.outside = s.outside := by
  unfold State.joinRequest
  split
  · rename_i h
    exact (post_outside ..).trans ((dropWake_outside ..).trans ((joinNew_outside ..).trans (annPlace_outside _ _ _ h)))
  · exact stepAnnDropped_outside ..

theorem takeRequest_outside (s : State) (q : AnnReq) : (State.takeRequest s q).1.outside = s.outside := by
  grind [State.takeRequest, State.outside, stepAnnDropped_outside, mergeQueued_outside, mergeSuspended_outside,
      mergePlaying_outside, joinRequest_outside]

theorem handleAnnounce_outside (s : State) (q : AnnReq) : (State.handleAnnounce s q).outside = s.outside := by
  grind [State.handleAnnounce, State.outside, updRec_outside, takeRequest_outside]

theorem stopPlaying_outside (s : State) (r : Request) : (State.stopPlaying s r).outside = s.outside := by
  grind [State.stopPlaying, State.outside, endCancelled_outside]

theorem cancelPair_outside (s : State) (x : Source) (t : Option Nat) : (State.cancelPair s x t).outside = s.outside :=
    by
  grind [State.cancelPair, State.outside, dropWake_outside, stopPlaying_outside]

theorem cancelSame_outside (s : State) (template : Nat) (slots : List Nat) (zones : BitVec 5) :
    (State.cancelSame s template slots zones).1.outside = s.outside := by
  grind [State.cancelSame, State.outside, dropWake_outside, stopPlaying_outside]

theorem showLine_outside (s : State) (p : Nat) : (State.showLine s p).outside = s.outside := by
  grind [State.showLine, State.outside, command_outside]

theorem showLines_outside (s : State) : (State.showLines s).outside = s.outside := by
  unfold State.showLines; split
  · exact foldl_outside _ _ _ (fun s x => showLine_outside ..)
  · rfl

theorem dropPowerWait_outside (s : State) (p : Nat) : (State.dropPowerWait s p).outside = s.outside := by
  grind [State.dropPowerWait, State.outside, updCtx_outside, releaseOpt_outside]

theorem idleCtx_outside (s : State) (p : Nat) : (State.idleCtx s p).outside = s.outside := by
  grind [State.idleCtx, State.outside, updCtx_outside, stopDwell_outside, dropPowerWait_outside]

theorem setUse_outside (s : State) (p : Nat) (u : ChannelUse) : (State.setUse s p u).outside = s.outside := by
  grind [State.setUse, State.outside, updCtx_outside]

theorem cueExpires_outside (s : State) (p : Nat) (r : TrainRec) : (State.cueExpires s p r).outside = s.outside := by
  grind [State.cueExpires, State.outside, post_outside]

theorem startCue_outside (s : State) (p : Nat) (tag : Nat) (load : Int) : (State.startCue s p tag load).outside =
    s.outside := by
  grind [State.startCue, State.outside, loadDwell_outside, setUse_outside, cueExpires_outside]

theorem cancelDoor_outside (s : State) (run : Nat) : (State.cancelDoor s run).outside = s.outside := by
  grind [State.cancelDoor, State.outside, post_outside]

theorem giveBack_outside (s : State) (p : Nat) (r : TrainRec) : (State.giveBack s p r).outside = s.outside := by
  grind [State.giveBack, State.outside, updCtx_outside, updRec_outside, returnHeld_outside, cancelDoor_outside]

theorem dropAsk_outside (s : State) (p : Nat) : (State.dropAsk s p).outside = s.outside := by
  grind [State.dropAsk, State.outside, updCtx_outside, cancelAsk_outside, dropPowerWait_outside]

theorem holdActions_outside (s : State) (p : Nat) (r : TrainRec) : (State.holdActions s p r).outside = s.outside := by
  grind [State.holdActions, State.outside, updCtx_outside, stopDwell_outside, authorityOff_outside, setUse_outside,
      giveBack_outside, dropAsk_outside]

theorem holdArises_outside (s : State) (p : Nat) : (State.holdArises s p).outside = s.outside := by
  grind [State.holdArises, State.outside, moveRec_outside, idleCtx_outside, startCue_outside, holdActions_outside]

theorem makeAsk_outside (s : State) (p : Nat) (c : PlatformCfg) (r : TrainRec) : (State.makeAsk s p c r).outside =
    s.outside := by
  grind [State.makeAsk, State.outside, updCtx_outside, requestTimer_outside, startAsk_outside]

theorem holdClears_outside (s : State) (p : Nat) (c : PlatformCfg) : (State.holdClears s p c).outside = s.outside := by
  grind [State.holdClears, State.outside, post_outside, updCtx_outside, moveRec_outside, stopDwell_outside,
      setUse_outside, makeAsk_outside]

theorem recomputeHold_outside (s : State) (p : Nat) : (State.recomputeHold s p).outside = s.outside := by
  grind [State.recomputeHold, State.outside, updCtx_outside, holdArises_outside, holdClears_outside]

theorem recomputeHolds_outside (s : State) : (State.recomputeHolds s).outside = s.outside := by
  exact foldl_outside _ _ _ (fun s x => by (repeat' split) <;> grind [State.outside, recomputeHold_outside])

theorem takeTheMark_outside (s : State) (p : Nat) (c : PlatformCfg) : (State.takeTheMark s p c).outside = s.outside :=
    by
  grind [State.takeTheMark, State.outside, updCtx_outside, moveRec_outside, makeAsk_outside]

theorem authorityTime_outside (s : State) (p : Nat) (c : PlatformCfg) : (State.authorityTime s p c).outside =
    s.outside := by
  grind [State.authorityTime, State.outside, updCtx_outside, moveRec_outside, command_outside, setUse_outside,
      holdArises_outside]

theorem arrangeAuthority_outside (s : State) (p : Nat) (c : PlatformCfg) : (State.arrangeAuthority s p c).outside =
    s.outside := by
  grind [State.arrangeAuthority, State.outside, loadDwell_outside, setUse_outside, authorityTime_outside]

theorem takeGrant_outside (s : State) (p serial : Nat) (origin : Route) (sec : Nat) :
    (State.takeGrant s p serial origin sec).outside = s.outside := by
  grind [State.takeGrant, State.outside, post_outside, updCtx_outside, updRec_outside, moveRec_outside,
      returnGrant_outside, dropPowerWait_outside, arrangeAuthority_outside]

theorem startDwell_outside (s : State) (p : Nat) (c : PlatformCfg) (remaining : Int) :
    (State.startDwell s p c remaining).1.outside = s.outside := by
  grind [State.startDwell, State.outside, updCtx_outside, loadDwell_outside, setUse_outside]

theorem holdAtComputation_outside (s : State) (p : Nat) (c : PlatformCfg) : (State.holdAtComputation s p c).outside =
    s.outside := by
  grind [State.holdAtComputation, State.outside, updCtx_outside, holdArises_outside]

theorem compute_outside (s : State) (p tag : Nat) : (State.compute s p tag).outside = s.outside := by
  grind [State.compute, State.outside, updCtx_outside, updRec_outside, idleCtx_outside, takeTheMark_outside,
      startDwell_outside, holdAtComputation_outside]

theorem targetExpires_outside (s : State) (p : Nat) (c : PlatformCfg) : (State.targetExpires s p c).outside =
    s.outside := by
  grind [State.targetExpires, State.outside, updCtx_outside, startCue_outside, authorityTime_outside]

theorem authExpires_outside (s : State) (p : Nat) (c : PlatformCfg) : (State.authExpires s p c).outside = s.outside :=
    by
  grind [State.authExpires, State.outside, setUse_outside, authorityTime_outside]

theorem cueWaitExpires_outside (s : State) (p : Nat) : (State.cueWaitExpires s p).outside = s.outside := by
  grind [State.cueWaitExpires, State.outside, setUse_outside, cueExpires_outside]

theorem powerWaitExpires_outside (s : State) (p : Nat) : (State.powerWaitExpires s p).outside = s.outside := by
  grind [State.powerWaitExpires, State.outside, overrideAsk_outside, dropPowerWait_outside]

theorem testLate_outside (s : State) (p : Nat) (tag : Nat) : (State.testLate s p tag).outside = s.outside := by
  grind [State.testLate, State.outside, raise_outside]

theorem captureDeparture_outside (s : State) (p : Nat) (c : PlatformCfg) (r : TrainRec) (ad : Option Nat) :
    (State.captureDeparture s p c r ad).outside = s.outside := by
  grind [State.captureDeparture, State.outside, updPlat_outside, updRec_outside, moveRec_outside]

theorem endStart_outside (s : State) (p : Nat) (r : TrainRec) : (State.endStart s p r).outside = s.outside := by
  grind [State.endStart, State.outside, returnHeld_outside, dropPowerWait_outside, cancelDoor_outside, dropAsk_outside]

theorem departRegular_outside (s : State) (p : Nat) (c : PlatformCfg) (r : TrainRec) (ad : Option Nat) :
    (State.departRegular s p c r ad).outside = s.outside := by
  grind [State.departRegular, State.outside, authorityOff_outside, keepStart_outside, idleCtx_outside,
      cancelDoor_outside, captureDeparture_outside]

theorem departWithout_outside (s : State) (p : Nat) (c : PlatformCfg) (r : TrainRec) (ad : Option Nat) :
    (State.departWithout s p c r ad).outside = s.outside := by
  grind [State.departWithout, State.outside, updRec_outside, authorityOff_outside, idleCtx_outside,
      captureDeparture_outside, endStart_outside]

theorem fallAt_outside (s : State) (p : Nat) (stamp : Option Nat) : (State.fallAt s p stamp).outside = s.outside := by
  grind [State.fallAt, State.outside, post_outside, removeRec_outside, vacate_outside, testLate_outside,
      departRegular_outside, departWithout_outside]

theorem contextGone_outside (s : State) (p : Nat) : (State.contextGone s p).outside = s.outside := by
  grind [State.contextGone, State.outside, authorityOff_outside, returnHeld_outside, idleCtx_outside, dropAsk_outside]

theorem contextsGone_outside (s : State) (tag : Nat) : (State.contextsGone s tag).outside = s.outside := by
  exact foldl_outside _ _ _ (fun s x => by (repeat' split) <;> grind [State.outside, contextGone_outside])

theorem brakeAt_outside (s : State) (p : Nat) (stamp : Option Nat) : (State.brakeAt s p stamp).outside = s.outside := by
  unfold State.brakeAt; split <;> grind [State.outside, post_outside, updCtx_outside]

theorem setModeDirective_outside (s : State) (mode : Nat) (platform : Option Nat) :
    (State.setModeDirective s mode platform).1.outside = s.outside := by
  unfold State.setModeDirective; split <;> grind [State.outside]

theorem updInc_outside (s : State) (id : IncId) (f : Incident → Incident) : (State.updInc s id f).outside =
    s.outside := by
  grind [State.updInc, State.outside]

theorem markDirty_outside (s : State) (id : IncId) : (State.markDirty s id).outside = s.outside := by
  grind [State.markDirty, State.outside]

theorem broadcastInc_outside (s : State) (id : IncId) : (State.broadcastInc s id).outside = s.outside := by
  grind [State.broadcastInc, State.outside, send_outside, updInc_outside]

theorem flushIncidents_outside (s : State) : (State.flushIncidents s).outside = s.outside := by
  exact foldl_outside _ _ _ (fun s x => by (repeat' split) <;> grind [State.outside, broadcastInc_outside])

theorem actingMoved_outside (s : State) : (State.actingMoved s).outside = s.outside := by
  grind [State.actingMoved, State.outside, post_outside]

theorem announceInc_outside (s : State) (e : Incident) : (State.announceInc s e).outside = s.outside := by
  grind [State.announceInc, State.outside, post_outside]

theorem announceResume_outside (s : State) (e : Incident) : (State.announceResume s e).outside = s.outside := by
  grind [State.announceResume, State.outside, post_outside]

theorem setRef_outside (s : State) (e : Incident) : (State.setRef s e).outside = s.outside := by
  grind [State.setRef, State.outside]

theorem clearRef_outside (s : State) (e : Incident) : (State.clearRef s e).outside = s.outside := by
  grind [State.clearRef, State.outside]

theorem checkLevel_outside (s : State) : (State.checkLevel s).outside = s.outside := by
  grind [State.checkLevel, State.outside, post_outside, select_outside]

theorem dropEscalation_outside (s : State) (id : IncId) : (State.dropEscalation s id).outside = s.outside := by
  grind [State.dropEscalation, State.outside, releaseOpt_outside, updInc_outside]

theorem startEscalation_outside (s : State) (id : IncId) : (State.startEscalation s id).outside = s.outside := by
  grind [State.startEscalation, State.outside, requestTimer_outside, updInc_outside]

theorem escalates_outside (s : State) (id : IncId) : (State.escalates s id).outside = s.outside := by
  grind [State.escalates, State.outside, post_outside, updInc_outside, markDirty_outside, announceInc_outside,
      dropEscalation_outside, startEscalation_outside]

theorem clearInc_outside (s : State) (id : IncId) : (State.clearInc s id).outside = s.outside := by
  grind [State.clearInc, State.outside, post_outside, updInc_outside, markDirty_outside, actingMoved_outside,
      announceResume_outside, clearRef_outside, dropEscalation_outside]

theorem removeInc_outside (s : State) (id : IncId) : (State.removeInc s id).outside = s.outside := by
  grind [State.removeInc, State.outside]

theorem evict_outside (s : State) (e : Incident) : (State.evict s e).outside = s.outside := by
  grind [State.evict, State.outside, post_outside, broadcastInc_outside, actingMoved_outside, clearRef_outside,
      dropEscalation_outside, removeInc_outside]

theorem entersOpen_outside (s : State) (e : Incident) : (State.entersOpen s e).outside = s.outside := by
  grind [State.entersOpen, State.outside, actingMoved_outside, announceInc_outside, setRef_outside]

theorem admitOwn_outside (s : State) (e : Incident) : (State.admitOwn s e).outside = s.outside := by
  grind [State.admitOwn, State.outside, markDirty_outside, actingMoved_outside, setRef_outside,
      startEscalation_outside, entersOpen_outside]

theorem makeRoom_outside (s t : State) (b : Nat) (h : s.makeRoom b = some t) : t.outside = s.outside := by
  unfold State.makeRoom at h
  split at h
  · cases h; rfl
  · split at h
    · cases h; exact evict_outside ..
    · rcases hl : s.lowestPeer b with _ | e
      · simp [hl] at h
      · simp [hl] at h; subst h; exact evict_outside ..

theorem createInc_outside (s : State) (r : Raise) : (State.createInc s r).1.outside = s.outside := by
  unfold State.createInc; dsimp only; split
  · rfl
  · split
    · rename_i heq; have h := makeRoom_outside _ _ _ heq; exact (admitOwn_outside ..).trans (h.trans rfl)
    · rfl

theorem mergeEscalation_outside (s : State) (e x : Incident) : (State.mergeEscalation s e x).outside = s.outside := by
  grind [State.mergeEscalation, State.outside, dropEscalation_outside, startEscalation_outside]

theorem mergeInc_outside (s : State) (e : Incident) (r : Raise) : (State.mergeInc s e r).outside = s.outside := by
  grind [State.mergeInc, State.outside, updInc_outside, markDirty_outside, actingMoved_outside, announceInc_outside,
      setRef_outside, entersOpen_outside, mergeEscalation_outside]

theorem takeRaise_outside (s : State) (r : Raise) : (State.takeRaise s r).1.outside = s.outside := by
  grind [State.takeRaise, State.outside, createInc_outside, mergeInc_outside]

theorem takeEnd_outside (s : State) (k : IncKind) (l : Loc) : (State.takeEnd s k l).outside = s.outside := by
  grind [State.takeEnd, State.outside, updInc_outside, markDirty_outside, actingMoved_outside, clearInc_outside]

theorem pointReport_outside (s : State) (n v : Nat) : (State.pointReport s n v).outside = s.outside := by
  grind [State.pointReport, State.outside, post_outside, raise_outside, breaker_outside]

theorem firstPointReports_outside (s : State) : (State.firstPointReports s).outside = s.outside := by
  exact foldl_outside _ _ _ (fun s x => by (repeat' split) <;> grind [State.outside, pointReport_outside])

theorem ackDirective_outside (s : State) (sender : Nat) (id : IncId) : (State.ackDirective s sender id).1.outside =
    s.outside := by
  grind [State.ackDirective, State.outside, updInc_outside, markDirty_outside, actingMoved_outside,
      dropEscalation_outside, clearInc_outside]

theorem clearDirective_outside (s : State) (id : IncId) : (State.clearDirective s id).1.outside = s.outside := by
  grind [State.clearDirective, State.outside, clearInc_outside]

theorem declareDirective_outside (s : State) (d : DeclareArgs) : (State.declareDirective s d).1.outside = s.outside :=
    by
  grind [State.declareDirective, State.outside, takeRaise_outside]

theorem overflowDirective_outside (s : State) : (State.overflowDirective s).1.outside = s.outside := by
  grind [State.overflowDirective, State.outside, post_outside]

theorem admitPeer_outside (s : State) (b : IncidentBody) : (State.admitPeer s b).outside = s.outside := by
  unfold State.admitPeer; split
  · exact stepDrops_outside ..
  · rename_i s1 heq
    have h := makeRoom_outside _ _ _ heq
    have h2 : ∀ i : Inu, ({ s1 with inu := i } : State).outside = s1.outside := fun i => rfl
    dsimp only; split <;> grind [actingMoved_outside, setRef_outside, announceInc_outside]

theorem updatePeer_outside (s : State) (e : Incident) (b : IncidentBody) : (State.updatePeer s e b).outside =
    s.outside := by
  grind [State.updatePeer, State.outside, updInc_outside, actingMoved_outside, announceInc_outside, setRef_outside,
      clearInc_outside]

theorem takeIncident_outside (s : State) (b : IncidentBody) : (State.takeIncident s b).outside = s.outside := by
  grind [State.takeIncident, State.outside, admitPeer_outside, updatePeer_outside]

theorem lingerEnds_outside (s : State) (id : IncId) : (State.lingerEnds s id).outside = s.outside := by
  grind [State.lingerEnds, State.outside, removeInc_outside]

theorem peerAges_outside (s : State) (id : IncId) : (State.peerAges s id).outside = s.outside := by
  grind [State.peerAges, State.outside, clearInc_outside]

theorem refreshInc_outside (s : State) (id : IncId) : (State.refreshInc s id).outside = s.outside := by
  grind [State.refreshInc, State.outside, markDirty_outside]

theorem sendAllOwn_outside (s : State) : (State.sendAllOwn s).outside = s.outside := by
  exact foldl_outside _ _ _ (fun s x => by (repeat' split) <;> grind [State.outside, markDirty_outside])

theorem updHctx_outside (s : State) (tag : Nat) (f : HandoverCtx → HandoverCtx) : (State.updHctx s tag f).outside =
    s.outside := by
  grind [State.updHctx, State.outside]

theorem closeHctx_outside (s : State) (tag : Nat) : (State.closeHctx s tag).outside = s.outside := by
  grind [State.closeHctx, State.outside]

theorem dropRetry_outside (s : State) (tag : Nat) : (State.dropRetry s tag).outside = s.outside := by
  grind [State.dropRetry, State.outside, releaseOpt_outside, updHctx_outside]

theorem askRetry_outside (s : State) (tag n : Nat) : (State.askRetry s tag n).outside = s.outside := by
  grind [State.askRetry, State.outside, requestTimer_outside, updHctx_outside, dropRetry_outside]

theorem sendHandover_outside (s : State) (tag : Nat) : (State.sendHandover s tag).outside = s.outside := by
  grind [State.sendHandover, State.outside, send_outside, updHctx_outside]

theorem openHandover_outside (s : State) (tag : Nat) : (State.openHandover s tag).outside = s.outside := by
  grind [State.openHandover, State.outside, updHoeDir_outside, askRetry_outside, sendHandover_outside]

theorem orphanLost_outside (s : State) (tag run : Nat) : (State.orphanLost s tag run).outside = s.outside := by
  grind [State.orphanLost, State.outside, raise_outside, moveRec_outside, updHctx_outside, dropRetry_outside]

theorem failAttempt_outside (s : State) (x : HandoverCtx) : (State.failAttempt s x).outside = s.outside := by
  grind [State.failAttempt, State.outside, updHctx_outside, askRetry_outside, sendHandover_outside, orphanLost_outside]

theorem startOrphanRetry_outside (s : State) (tag : Nat) : (State.startOrphanRetry s tag).outside = s.outside := by
  grind [State.startOrphanRetry, State.outside, moveRec_outside, updHctx_outside, askRetry_outside,
      sendHandover_outside]

theorem endOrphanRetry_outside (s : State) (tag : Nat) : (State.endOrphanRetry s tag).outside = s.outside := by
  grind [State.endOrphanRetry, State.outside, moveRec_outside, updHctx_outside, dropRetry_outside]

theorem endHandover_outside (s : State) (d : Dir) (x : HandoverCtx) : (State.endHandover s d x).outside = s.outside :=
    by
  grind [State.endHandover, State.outside, post_outside, updHoeDir_outside, removeRec_outside, closeHctx_outside,
      dropRetry_outside]

theorem takeRefusal_outside (s : State) (x : HandoverCtx) (duplicate : Bool) :
    (State.takeRefusal s x duplicate).outside = s.outside := by
  grind [State.takeRefusal, State.outside, raise_outside, moveRec_outside, updHctx_outside, dropRetry_outside,
      askRetry_outside, orphanLost_outside, endOrphanRetry_outside]

theorem downstreamHeard_outside (s : State) (x : HandoverCtx) : (State.downstreamHeard s x).outside = s.outside := by
  grind [State.downstreamHeard, State.outside, failAttempt_outside, startOrphanRetry_outside, endOrphanRetry_outside]

theorem hoeStatus_outside (s : State) (sender : Nat) : (State.hoeStatus s sender).outside = s.outside := by
  exact foldl_outside _ _ _ (fun s x => by (repeat' split) <;> grind [State.outside, downstreamHeard_outside])

theorem startWatch_outside (s : State) (tag : Nat) : (State.startWatch s tag).outside = s.outside := by
  unfold State.startWatch; split <;> grind [State.outside, requestTimer_outside, stopTimer_outside]

theorem dropWatch_outside (s : State) (tag : Nat) : (State.dropWatch s tag).outside = s.outside := by
  grind [State.dropWatch, State.outside, releaseOpt_outside]

theorem feedWatch_outside (s : State) (w : StallWatch) : (State.feedWatch s w).outside = s.outside := by
  grind [State.feedWatch, State.outside, stopTimer_outside, resumeTimer_outside]

theorem feedWatches_outside (s : State) : (State.feedWatches s).outside = s.outside := by
  exact foldl_outside _ _ _ (fun s x => by (repeat' split) <;> grind [State.outside, feedWatch_outside])

theorem watchExpires_outside (s : State) (tag : Nat) : (State.watchExpires s tag).outside = s.outside := by
  grind [State.watchExpires, State.outside, raiseOver_outside, dropWatch_outside]

theorem watchBerthed_outside (s : State) (tag run : Nat) : (State.watchBerthed s tag run).outside = s.outside := by
  grind [State.watchBerthed, State.outside, post_outside, dropWatch_outside]

theorem hoeGone_outside (s : State) (tag run : Nat) : (State.hoeGone s tag run).outside = s.outside := by
  grind [State.hoeGone, State.outside, post_outside, closeHctx_outside, dropRetry_outside, watchBerthed_outside]

theorem answerRepeat_outside (s : State) (sender : Nat) (e : SentEntry) : (State.answerRepeat s sender e).outside =
    s.outside := by
  grind [State.answerRepeat, State.outside, post_outside, send_outside]

theorem acceptHandover_outside (s : State) (sender tag : Nat) (e : SentEntry) :
    (State.acceptHandover s sender tag e).outside = s.outside := by
  grind [State.acceptHandover, State.outside, raise_outside, updHoeDir_outside, send_outside, startWatch_outside]

theorem takeHandover_outside (s : State) (sender : Nat) (e : SentEntry) : (State.takeHandover s sender e).outside =
    s.outside := by
  grind [State.takeHandover, State.outside, raise_outside, send_outside, createRec_outside, answerRepeat_outside,
      acceptHandover_outside]

theorem askRenewal_outside (s : State) (d : Dir) : (State.askRenewal s d).outside = s.outside := by
  grind [State.askRenewal, State.outside, updHoeDir_outside, send_outside]

theorem startRebuildTimer_outside (s : State) : (State.startRebuildTimer s).outside = s.outside := by
  grind [State.startRebuildTimer, State.outside, requestTimer_outside]

theorem startRebuild_outside (s : State) : (State.startRebuild s).outside = s.outside := by
  grind [State.startRebuild, State.outside, post_outside, askRenewal_outside, startRebuildTimer_outside]

theorem joinReceived_outside (s : State) (d : Dir) (e : SentEntry) : (State.joinReceived s d e).outside = s.outside :=
    by
  grind [State.joinReceived, State.outside, updHoeDir_outside]

theorem placeAtBerth_outside (s : State) (d : Dir) (p : Nat) (c : PlatformCfg) (e : SentEntry) :
    (State.placeAtBerth s d p c e).1.outside = s.outside := by
  grind [State.placeAtBerth, State.outside, createRec_outside, convert_outside, setOccupant_outside,
      joinReceived_outside]

theorem fillBerth_outside (s : State) (d : Dir) (p : Nat) (c : PlatformCfg) (x0 : List SentEntry) :
    (State.fillBerth s d p c x0).1.outside = s.outside := by
  induction x0 generalizing s with
  | nil => rfl
  | cons e es ih => unfold State.fillBerth; (repeat' split) <;> grind [placeAtBerth_outside]

theorem fillBerths_outside (s : State) (d : Dir) (x0 : List Nat) (x1 : List SentEntry) :
    (State.fillBerths s d x0 x1).1.outside = s.outside := by
  induction x0 generalizing s x1 with
  | nil => rfl
  | cons e es ih => unfold State.fillBerths; (repeat' split) <;> grind [fillBerth_outside]

theorem placeApproaching_outside (s : State) (d : Dir) (e : SentEntry) : (State.placeApproaching s d e).outside =
    s.outside := by
  grind [State.placeApproaching, State.outside, createRec_outside, startWatch_outside, joinReceived_outside]

theorem leftBerths_outside (s : State) (d : Dir) : (State.leftBerths s d).outside = s.outside := by
  exact foldl_outside _ _ _ (fun s x => by (repeat' split) <;> grind [State.outside, unknownArrival_outside])

theorem placeDirection_outside (s : State) (d : Dir) : (State.placeDirection s d).outside = s.outside := by
  unfold State.placeDirection; split
  rename_i s1 rest h
  have h1 := fillBerths_outside s d (s.emptyBerths d) (s.candidates d)
  rw [h] at h1
  exact (leftBerths_outside ..).trans ((foldl_outside _ _ _ (fun s x => by grind [placeApproaching_outside])).trans h1)

theorem computeRebuilt_outside (s : State) : (State.computeRebuilt s).outside = s.outside := by
  grind [State.computeRebuilt, State.outside, posts_outside, compute_outside]

theorem answerRenewal_outside (s : State) (sender : Nat) (d : Dir) : (State.answerRenewal s sender d).outside =
    s.outside := by
  grind [State.answerRenewal, State.outside, send_outside]

theorem takeRenewal_outside (s : State) (sender : Nat) (d : Dir) (counter : Option Nat) (content : RenewContent) :
    (State.takeRenewal s sender d counter content).outside = s.outside := by
  unfold State.takeRenewal; split <;> grind [State.outside, post_outside, updHoeDir_outside]

theorem receiveFragment_outside (s : State) (m : Nat) : (State.receiveFragment s m).outside = s.outside := by
  grind [State.receiveFragment, State.outside, stepDiscards_outside, lineBit_outside]

theorem forward_outside (s : State) (r : Received) : (State.forward s r).outside = s.outside := by
  grind [State.forward, State.outside, view_outside]

theorem becomePresent_outside (s : State) (n : Nat) : (State.becomePresent s n).outside = s.outside := by
  exact foldl_outside _ _ _ (fun s x => by (repeat' split) <;> grind [State.outside, updWatch_outside,
      endStandIn_outside])

theorem becomeAbsent_outside (s : State) (n : Nat) : (State.becomeAbsent s n).outside = s.outside := by
  unfold State.becomeAbsent; dsimp only
  exact (foldl_outside _ _ _ (fun s x => beginStandIn_outside ..)).trans ((staleMirrors_outside ..).trans (updWatch_outside ..))

theorem ageWatch_outside (s : State) (n : Nat) : (State.ageWatch s n).outside = s.outside := by
  grind [State.ageWatch, State.outside, becomeAbsent_outside]

theorem hearStatus_outside (s : State) (n time : Nat) (b : StatusBody) :
    (State.hearStatus s n time b).outside = s.outside := by
  grind [State.hearStatus, State.outside, updWatch_outside, becomePresent_outside]

theorem formStatus_outside (s : State) : (State.formStatus s).outside = s.outside := by
  grind [State.formStatus, State.outside, hand_outside]

theorem answerPlan_outside (s : State) (target kind planId : Nat) (r : AnswerResult) :
    (State.answerPlan s target kind planId r).outside = s.outside := by
  grind [State.answerPlan, State.outside, send_outside]

theorem dropPlanTimer_outside (s : State) : (State.dropPlanTimer s).outside = s.outside := by
  grind [State.dropPlanTimer, State.outside, releaseOpt_outside]

theorem closeTransfer_outside (s : State) (r : PlanResult) : (State.closeTransfer s r).outside = s.outside := by
  grind [State.closeTransfer, State.outside, endTransfer_outside, dropPlanTimer_outside]

theorem openTransfer_outside (s : State) (sender planId blocks remainder : Nat) :
    (State.openTransfer s sender planId blocks remainder).outside = s.outside := by
  grind [State.openTransfer, State.outside, requestTimer_outside, endTransfer_outside, clearStaging_outside,
      dropPlanTimer_outside]

theorem takePlanOpen_outside (s : State) (sender planId blocks remainder : Nat) :
    (State.takePlanOpen s sender planId blocks remainder).outside = s.outside := by
  grind [State.takePlanOpen, State.outside, answerPlan_outside, openTransfer_outside]

theorem rejectTransfer_outside (s : State) : (State.rejectTransfer s).outside = s.outside := by
  grind [State.rejectTransfer, State.outside, raise_outside, closeTransfer_outside]

theorem takePlanBlock_outside (s : State) (sender planId index : Nat) (es : List PlanEntry) :
    (State.takePlanBlock s sender planId index es).outside = s.outside := by
  unfold State.takePlanBlock; dsimp only
  have h := foldl_outside State.stage es s (fun s x => stage_outside ..)
  (repeat' split) <;> grind [State.outside, reloadTimer_outside, rejectTransfer_outside]

theorem takePlanClose_outside (s : State) (sender planId total : Nat) :
    (State.takePlanClose s sender planId total).outside = s.outside := by
  grind [State.takePlanClose, State.outside, applyStaging_outside, answerPlan_outside, closeTransfer_outside,
      rejectTransfer_outside]

theorem planExpires_outside (s : State) : (State.planExpires s).outside = s.outside := by
  grind [State.planExpires, State.outside, closeTransfer_outside]

theorem sendAnswer_outside (s : State) (target : Nat) (b : AnswerBody) (note : TxNote) :
    (State.sendAnswer s target b note).outside = s.outside := by
  grind [State.sendAnswer, State.outside, send_outside, view_outside]

theorem holdDirective_outside (s : State) (run : Nat) (platform : Option Nat) (flag : Bool) :
    (State.holdDirective s run platform flag).1.outside = s.outside := by
  grind [State.holdDirective, State.outside, post_outside, updRec_outside]

theorem withdrawDirective_outside (s : State) (run : Nat) (platform : Option Nat) :
    (State.withdrawDirective s run platform).1.outside = s.outside := by
  grind [State.withdrawDirective, State.outside, post_outside, updRec_outside]

theorem insertApproaching_outside (s : State) (a : InsertArgs) : (State.insertApproaching s a).1.outside = s.outside :=
    by
  grind [State.insertApproaching, State.outside, createRec_outside, startWatch_outside]

theorem insertAtBerth_outside (s : State) (a : InsertArgs) (p : Nat) : (State.insertAtBerth s a p).1.outside =
    s.outside := by
  grind [State.insertAtBerth, State.outside, post_outside, updRec_outside, createRec_outside, setOccupant_outside,
      compute_outside]

theorem insertDirective_outside (s : State) (a : InsertArgs) : (State.insertDirective s a).1.outside = s.outside := by
  grind [State.insertDirective, State.outside, insertApproaching_outside, insertAtBerth_outside]

theorem announceDirective_outside (s : State) (sender : Nat) (a : AnnounceArgs) :
    (State.announceDirective s sender a).1.outside = s.outside := by
  grind [State.announceDirective, State.outside, takeRequest_outside]

theorem cancelDirective_outside (s : State) (template : Nat) (slots : List Nat) (zones : BitVec 5) :
    (State.cancelDirective s template slots zones).1.outside = s.outside := by
  grind [State.cancelDirective, State.outside, cancelSame_outside]

theorem orderRestart_outside (s : State) (x0 : Directive) : (State.orderRestart s x0).1.outside = s.outside := by
  unfold State.orderRestart; split <;> grind [State.outside]

theorem localResult_outside (s : State) (r : Report) (x : AnswerResult) : (State.localResult s r x).outside =
    s.outside := by
  grind [State.localResult, State.outside, view_outside]

theorem appendEntry_outside (s : State) (e : PlanEntry) : (State.appendEntry s e).outside = s.outside := by
  grind [State.appendEntry, State.outside]

theorem actingTold_outside (s : State) : (State.actingTold s).outside = s.outside := by
  grind [State.actingTold, recomputeHolds_outside, checkCuts_outside]

theorem sectionMoved_outside (s : State) (k : Nat) : (State.sectionMoved s k).outside = s.outside := by
  grind [State.sectionMoved, State.outside, reevaluate_outside, recomputeHolds_outside, feedWatches_outside]

theorem authoritiesOff_outside (s : State) : (State.authoritiesOff s).outside = s.outside := by
  exact foldl_outside _ _ _ (fun s x => by (repeat' split) <;> grind [State.outside, authorityOff_outside])

theorem raiseLostLink_outside (s : State) : (State.raiseLostLink s).outside = s.outside := by
  grind [State.raiseLostLink, State.outside, raise_outside]

theorem retryExpires_outside (s : State) (tag : Nat) : (State.retryExpires s tag).outside = s.outside := by
  grind [State.retryExpires, State.outside, dropRetry_outside, failAttempt_outside]

theorem retryEnds_outside (s : State) (tag : Nat) : (State.retryEnds s tag).outside = s.outside := by
  unfold State.retryEnds; (repeat' split) <;> grind [retryExpires_outside, endOrphanRetry_outside]

theorem sectionTimerEnds_outside (s : State) (k : Nat) : (State.sectionTimerEnds s k).outside = s.outside := by
  unfold State.sectionTimerEnds; (repeat' split) <;> grind [reclose_outside, lockOut_outside]

/-! ## The start state -/

theorem enterRunning_outside (s : State) : s.enterRunning.outside = { s.outside with start := .running } := by
  have h := computeRebuilt_outside ({ s with cfl := { s.cfl with start := .running } } : State)
  exact h

theorem finishRebuild_outside (s : State) : s.finishRebuild.outside = { s.outside with start := .running } := by
  unfold State.finishRebuild
  dsimp only
  rw [enterRunning_outside, placeDirection_outside, placeDirection_outside]
  have h := releaseOpt_outside s s.hoe.rebuildTimer
  grind [State.outside]

/-- Only a rebuild that is complete moves the start state. -/
theorem checkRebuild_stays (s : State) (h : s.cfl.start ≠ .rebuild) : s.checkRebuild = s := by
  simp [State.checkRebuild, h]

theorem checkRebuild_outside (s : State) :
    s.checkRebuild.outside = { s.outside with start := s.checkRebuild.cfl.start } := by
  unfold State.checkRebuild
  split
  · have h := finishRebuild_outside s
    grind [State.outside]
  · rfl

theorem rebuildExpires_outside (s : State) :
    s.rebuildExpires.outside = { s.outside with start := s.rebuildExpires.cfl.start } := by
  exact checkRebuild_outside _

theorem ownerExpires_stays (s : State) (o : TimerOwner) (h : s.cfl.start ≠ .rebuild) :
    (s.ownerExpires o).outside = s.outside := by
  cases o <;> simp only [State.ownerExpires] <;>
    grind [powerWaitExpires_outside, retryEnds_outside, watchExpires_outside, sectionTimerEnds_outside,
      escalates_outside, wakeExpired_outside, playerExpired_outside, planExpires_outside]

theorem ownerExpires_outside (s : State) (o : TimerOwner) :
    (s.ownerExpires o).outside = { s.outside with start := (s.ownerExpires o).cfl.start } := by
  by_cases h : s.cfl.start = .rebuild
  · cases o with
    | rebuild => simpa [State.ownerExpires, h] using rebuildExpires_outside s
    | _ =>
      simp only [State.ownerExpires] <;>
      grind [State.outside, powerWaitExpires_outside, retryEnds_outside, watchExpires_outside, sectionTimerEnds_outside,
        escalates_outside, wakeExpired_outside, playerExpired_outside, planExpires_outside]
  · have h1 := ownerExpires_stays s o h
    grind [State.outside]

theorem handleMsg_stays (m : Msg) (s : State) (h : s.cfl.start ≠ .rebuild) : (handleMsg m s).outside = s.outside := by
  cases m <;> simp only [handleMsg] <;>
    grind [takeRaise_outside, takeEnd_outside, checkLevel_outside, recomputeHolds_outside, actingTold_outside,
      compute_outside, sectionMoved_outside, takeGrant_outside, contextsGone_outside, hoeGone_outside,
      openHandover_outside, watchBerthed_outside, handleAnnounce_outside, cancelPair_outside, select_outside,
      pump_outside, boundary_outside, checkRebuild_stays, ownerExpires_stays]

theorem handleMsg_outside (m : Msg) (s : State) :
    (handleMsg m s).outside = { s.outside with start := (handleMsg m s).cfl.start } := by
  cases m <;> simp only [handleMsg] <;>
    grind [State.outside, takeRaise_outside, takeEnd_outside, checkLevel_outside, recomputeHolds_outside,
        actingTold_outside,
      compute_outside, sectionMoved_outside, takeGrant_outside, contextsGone_outside, hoeGone_outside,
      openHandover_outside, watchBerthed_outside, handleAnnounce_outside, cancelPair_outside, select_outside,
      pump_outside, boundary_outside, checkRebuild_outside, ownerExpires_outside]

theorem takeFirst_outside (s : State) : s.takeFirst.outside = { s.outside with start := s.takeFirst.cfl.start } := by
  unfold State.takeFirst
  split
  · rfl
  · rename_i m ms _
    have h := handleMsg_outside m { s with work := [] }
    grind [State.outside]

theorem takeFirst_stays (s : State) (h : s.cfl.start ≠ .rebuild) : s.takeFirst.outside = s.outside := by
  unfold State.takeFirst
  split
  · rfl
  · rename_i m ms _
    have h := handleMsg_stays m { s with work := [] } h
    grind [State.outside]

theorem settleN_outside (n : Nat) (s : State) :
    (settleN n s).outside = { s.outside with start := (settleN n s).cfl.start } := by
  induction n generalizing s with
  | zero => rfl
  | succ n ih =>
    unfold settleN
    split
    · rfl
    · have h1 := ih s.takeFirst
      have h2 := takeFirst_outside s
      grind [State.outside]

theorem settleN_stays (n : Nat) (s : State) (h : s.cfl.start ≠ .rebuild) : (settleN n s).outside = s.outside := by
  induction n generalizing s with
  | zero => rfl
  | succ n ih =>
    unfold settleN
    split
    · rfl
    · have h2 := takeFirst_stays s h
      have h1 := ih s.takeFirst (by grind [State.outside])
      exact h1.trans h2

theorem cutShort_outside (s : State) : s.cutShort.outside = s.outside := by
  grind [State.cutShort, State.outside]

/-- The end of an event leaves the outside part as it is, but for the start state. -/
theorem finish_outside (s : State) : (finish s).outside = { s.outside with start := (finish s).cfl.start } := by
  have h1 := settleN_outside settleFuel s
  unfold finish
  dsimp only
  split <;> grind [State.outside, flushIncidents_outside, cutShort_outside]

/-- Outside a rebuild it leaves the start state too. -/
theorem finish_stays (s : State) (h : s.cfl.start ≠ .rebuild) : (finish s).outside = s.outside := by
  have h1 := settleN_stays settleFuel s h
  unfold finish
  dsimp only
  split <;> grind [flushIncidents_outside, cutShort_outside]

theorem rebuildPeriod_outside (s : State) :
    s.rebuildPeriod.outside = { s.outside with start := s.rebuildPeriod.cfl.start } := by
  unfold State.rebuildPeriod
  split
  · split
    · exact rebuildExpires_outside s
    · rfl
  · rfl

theorem statusPeriod_outside (s : State) :
    s.statusPeriod.outside = { s.outside with start := s.statusPeriod.cfl.start } := by
  have h0 := updChan_outside s 4 (fun c => { c with expiryDue := false })
  have h1 := rebuildPeriod_outside (s.updChan 4 (fun c => { c with expiryDue := false }))
  unfold State.statusPeriod
  dsimp only
  split <;> grind [State.outside, formStatus_outside, showLines_outside]

theorem enterRebuild_outside (s : State) : s.enterRebuild.outside = { s.outside with start := .rebuild } := by
  unfold State.enterRebuild
  rw [startRebuild_outside, sendAllOwn_outside]
  rfl

end Sys2Proof.Machine
end

