-- ==== Sys2Proof/Laws/Events.lean ====
section
/-! SUPPORT. The end of an event, and the shapes in which the commands' meanings are written: what each can answer. -/

namespace Sys2Proof.Machine

open Sys2Proof

/-! ## Requests between blocks -/

@[simp] theorem joinWork_nil_left (l : List Msg) : joinWork [] l = l := by
  have h : Msg.toldBefore [] = fun _ => false := by funext m; simp [Msg.toldBefore]
  have h1 : l.filter (fun _ => false) = [] := List.filter_eq_nil_iff.mpr (by simp)
  have h2 : l.filter (fun _ => true) = l := List.filter_eq_self.mpr (by simp)
  simp [joinWork, h, h1, h2]

@[simp] theorem joinWork_nil_right (l : List Msg) : joinWork l [] = l := by simp [joinWork]

theorem joinWork_mem (m : Msg) (a b : List Msg) : m ∈ joinWork a b ↔ m ∈ a ∨ m ∈ b := by
  simp only [joinWork, List.mem_append, List.mem_filter]
  cases m.toldBefore a <;> simp [or_comm]

/-- What the INU is told of one condition is taken in the order told (R155). -/
theorem joinWork_condition (a b : List Msg) (x : IncKind × Loc) :
    (joinWork a b).filter (fun m => m.condition == some x) =
      b.filter (fun m => m.condition == some x) ++ a.filter (fun m => m.condition == some x) := by
  simp only [joinWork, List.filter_append, List.filter_filter]
  by_cases h : ∃ y ∈ a, y.condition = some x
  · have hb : ∀ m : Msg, m.condition = some x → m.toldBefore a = true := by
      intro m hm
      obtain ⟨y, hy, hc⟩ := h
      simp only [Msg.toldBefore, hm, Option.isSome_some, Bool.true_and, List.any_eq_true]
      exact ⟨y, hy, by simp [hc]⟩
    have h1 : b.filter (fun m => m.condition == some x && m.toldBefore a) = b.filter (fun m => m.condition == some x) := by
      apply List.filter_congr; intro m _
      by_cases hm : m.condition = some x <;> simp [hm, hb]
    have h2 : b.filter (fun m => m.condition == some x && !m.toldBefore a) = [] := by
      apply List.filter_eq_nil_iff.mpr; intro m _
      by_cases hm : m.condition = some x <;> simp [hm, hb]
    simp [h1, h2]
  · have hb : ∀ m : Msg, m.condition = some x → m.toldBefore a = false := by
      intro m hm
      simp only [Msg.toldBefore, hm, Option.isSome_some, Bool.true_and, List.any_eq_false]
      intro y hy hc
      exact h ⟨y, hy, by simpa using hc⟩
    have h1 : b.filter (fun m => m.condition == some x && m.toldBefore a) = [] := by
      apply List.filter_eq_nil_iff.mpr; intro m _
      by_cases hm : m.condition = some x <;> simp [hm, hb]
    have h2 : b.filter (fun m => m.condition == some x && !m.toldBefore a) = b.filter (fun m => m.condition == some x) := by
      apply List.filter_congr; intro m _
      by_cases hm : m.condition = some x <;> simp [hm, hb]
    have h3 : a.filter (fun m => m.condition == some x) = [] := by
      apply List.filter_eq_nil_iff.mpr; intro m hm hc
      exact h ⟨m, hm, by simpa using hc⟩
    simp [h1, h2, h3]
/-! ## The end of an event -/

/-- Sending a telegram asks no block for anything and marks no incident. -/
theorem send_work (s : State) (n : Nat) (b : Body) (x : TxNote) :
    (s.send n b x).work = s.work ∧ (s.send n b x).inu = s.inu := by
  have key : ∀ (t : State) (i : TxItem), (t.placeTelegram i).work = t.work ∧ (t.placeTelegram i).inu = t.inu := by
    intro t i
    have join : (t.joinQueue i).work = t.work ∧ (t.joinQueue i).inu = t.inu := by
      unfold State.joinQueue
      dsimp only
      split
      · exact ⟨rfl, rfl⟩
      · cases hx : i.note <;> simp [State.noteDropped, State.restartGone, State.stepDrops] <;> split <;> simp
    unfold State.placeTelegram
    split
    · split
      · exact ⟨rfl, rfl⟩
      · exact join
    · exact join
  unfold State.send State.hand
  split
  · split
    · cases x <;> simp [State.noteDropped, State.restartGone, State.stepDrops] <;> split <;> simp
    · exact key _ _
  · exact ⟨rfl, rfl⟩

/-- Sending one INCIDENT asks no block for anything and marks no incident. -/
theorem broadcastInc_work (s : State) (id : IncId) :
    (s.broadcastInc id).work = s.work ∧ (s.broadcastInc id).inu.dirty = s.inu.dirty := by
  unfold State.broadcastInc
  split
  · split
    · have h := send_work s 0
      simp [State.updInc, h]
    · exact ⟨rfl, rfl⟩
  · exact ⟨rfl, rfl⟩

/-- An event ends with no request left and no INCIDENT due. -/
theorem finish_ends (s : State) : (finish s).Quiet := by
  have fold : ∀ (l : List IncId) (t : State), t.Quiet → (l.foldl State.broadcastInc t).Quiet := by
    intro l
    induction l with
    | nil => exact fun t h => h
    | cons x xs ih =>
      intro t h
      have k := broadcastInc_work t x
      exact ih _ ⟨k.1.trans h.1, k.2.trans h.2⟩
  refine fold _ _ ⟨?_, rfl⟩
  simp only
  split
  · rename_i h
    simpa using h
  · rfl

/-- At rest there is nothing to end. -/
theorem finish_quiet (s : State) (h : s.Quiet) : finish s = s := by
  obtain ⟨hw, hd⟩ := h
  have settle : settleN settleFuel s = s := by
    show settleN (65535 + 1) s = s
    unfold settleN
    simp [hw]
  simp only [finish, settle, hw, List.isEmpty_nil, if_true]
  obtain ⟨⟩ := s
  rename_i inu _ _ _ _ _ _ _ _ _ _
  obtain ⟨⟩ := inu
  simp only at hw hd
  subst hw
  subst hd
  rfl

/-! ## Shapes of meanings -/

/-- An event with its occasion. -/
theorem onEvent_taken (s : State) (o : Bool) (f : State → State) (hr : s.pins.resetLow = false) (ho : o = true) :
    onEvent s o f = .next (finish (f s)) := by simp [onEvent, hr, ho]

/-- An event without its occasion changes nothing. -/
theorem onEvent_passed (s : State) (o : Bool) (f : State → State) (h : s.pins.resetLow = true ∨ o = false) :
    onEvent s o f = .next s := by rcases h with h | h <;> simp [onEvent, h]

/-- The two ends of an event. -/
theorem onEvent_cases (s t : State) (o : Bool) (f : State → State) (h : onEvent s o f = .next t) :
    t = s ∨ (s.pins.resetLow = false ∧ o = true ∧ t = finish (f s)) := by
  unfold onEvent at h
  split at h
  · rename_i hc
    simp at hc
    cases h
    exact .inr ⟨hc.1, hc.2, rfl⟩
  · cases h
    exact .inl rfl

/-- An event keeps whatever its own effect and the end of an event keep. -/
theorem onEvent_keeps {α : Type} (φ : State → α) (s t : State) (o : Bool) (f : State → State)
    (hf : φ (f s) = φ s) (hend : ∀ u, φ (finish u) = φ u) (h : onEvent s o f = .next t) : φ t = φ s := by
  rcases onEvent_cases s t o f h with h | ⟨_, _, h⟩
  · rw [h]
  · rw [h, hend, hf]

/-- An event leaves the part at rest. -/
theorem onEvent_quiet (s t : State) (o : Bool) (f : State → State) (hs : s.Quiet) (h : onEvent s o f = .next t) :
    t.Quiet := by
  rcases onEvent_cases s t o f h with h | ⟨_, _, h⟩
  · exact h ▸ hs
  · exact h ▸ finish_ends _

/-- The head telegram as it was received. -/
theorem head_received {s : State} {t : Telegram} {ts : List Received} (h : s.HeadIs t ts) :
    ∃ r : Received, s.lbc.rx = r :: ts ∧ r.tg = t := by
  obtain ⟨h1, h2, _⟩ := h
  cases hx : s.lbc.rx with
  | nil => simp [hx] at h1
  | cons r rs => exact ⟨r, by simp [hx] at h2; rw [h2], by simpa [hx] using h1⟩

/-- A received telegram of the kind wanted at the head, for a station node, is taken by `f`. -/
theorem onReceived_station (s : State) (want : Body → Bool) (f : Received → State → State) (r : Received)
    (ts : List Received) (hrole : s.cfg.role = .station) (hrx : s.lbc.rx = r :: ts)
    (hto : r.tg.target = 0 ∨ r.tg.target = s.cfg.node) (hw : want r.tg.body = true) :
    s.onReceived want f = f r (s.withRx ts) := by
  have hf : (s.popRx).forward r = s.popRx := by simp [State.forward, State.isStation, State.popRx, hrole]
  have hm : (s.popRx).forMe r.tg = true := by
    rcases hto with h | h <;> simp [State.forMe, State.popRx, h]
  simp [State.onReceived, State.takeTelegram, hrx, hw, hf, hm]
  simp [State.popRx, State.withRx, hrx]

/-- A telegram of the kind wanted at the head, for a station node, is taken by `f`. -/
theorem onTelegram_station (s : State) (want : Body → Bool) (f : Telegram → State → State) (t : Telegram)
    (ts : List Received) (hrole : s.cfg.role = .station) (hh : s.HeadIs t ts) (hw : want t.body = true) :
    s.onTelegram want f = f t (s.withRx ts) := by
  obtain ⟨r, hrx, rfl⟩ := head_received hh
  exact onReceived_station s want _ r ts hrole hrx hh.2.2 hw

/-- A telegram of a kind at the head, at a station node, taken as one event. -/
theorem onKind_station (s : State) (want : Body → Bool) (f : Telegram → State → State) (t : Telegram)
    (ts : List Received) (hr : s.pins.resetLow = false) (hrole : s.cfg.role = .station) (hh : s.HeadIs t ts)
    (hw : want t.body = true) : onKind s want f = .next (finish (f t (s.withRx ts))) := by
  have ho : s.rxHead want = true := by
    obtain ⟨r, hrx, rfl⟩ := head_received hh
    simp [State.rxHead, hrx, hw]
  rw [onKind, onEvent_taken s _ _ hr ho, onTelegram_station s want f t ts hrole hh hw]

/-- A received telegram of a kind at the head, at a station node, taken as one event. -/
theorem onReceivedKind_station (s : State) (want : Body → Bool) (f : Received → State → State) (r : Received)
    (ts : List Received) (hr : s.pins.resetLow = false) (hrole : s.cfg.role = .station) (hrx : s.lbc.rx = r :: ts)
    (hto : r.tg.target = 0 ∨ r.tg.target = s.cfg.node) (hw : want r.tg.body = true) :
    onReceivedKind s want f = .next (finish (f r (s.withRx ts))) := by
  have ho : s.rxHead want = true := by simp [State.rxHead, hrx, hw]
  rw [onReceivedKind, onEvent_taken s _ _ hr ho, onReceived_station s want f r ts hrole hrx hto hw]

end Sys2Proof.Machine
end

