-- ==== Sys2Proof/Laws/Base.lean ====
section
/-! SUPPORT. What the events' own effects leave of the queue of commands, the input queues, the running time and the
pins. -/

namespace Sys2Proof.Machine

open Sys2Proof

/-- The queue of commands, the queues the outside fills, the running time, the number of track pins. -/
structure Base where
  pending : List Instr
  rx : List Received
  reports : List Report
  runTime : Nat
  pins : Nat

/-- That part of a state. -/
def State.base (s : State) : Base := ⟨s.pending, s.lbc.rx, s.slc.reports, s.runTime, s.pins.trk.length⟩

/-- What keeps the outside part keeps this one. -/
theorem base_of_outside (s t : State) (h : t.outside = s.outside) : t.base = s.base := by
  grind [State.base, State.outside]

theorem setClockFrom_base (s : State) (sender : Nat) (b : StatusBody) : (State.setClockFrom s sender b).base =
    s.base := by
  grind [State.setClockFrom, State.base, State.outside]

theorem trimClock_base (s : State) : (State.trimClock s).base = s.base := by
  grind [State.trimClock, State.base, State.outside]

theorem setClockTo_base (s : State) (t : Nat) : (State.setClockTo s t).base = s.base := by
  grind [State.setClockTo, State.base, State.outside]

theorem loseLink_base (s : State) : (State.loseLink s).base = s.base := by
  grind [State.loseLink, State.base, State.outside, post_outside, raise_outside]

theorem setPoint_base (s : State) (n v : Nat) : (State.setPoint s n v).base = s.base := by
  grind [State.setPoint, State.base, State.outside]

theorem updTrack_base (s : State) (i : Nat) (f : TrackDyn → TrackDyn) : (State.updTrack s i f).base = s.base := by
  grind [State.updTrack, State.base, State.outside]

theorem rawChange_base (s : State) (i m : Nat) (active : Bool) : (State.rawChange s i m active).base = s.base := by
  grind [State.rawChange, State.base, State.outside, updTrack_base]

theorem pinChange_base (s : State) (i m : Nat) (high : Bool) : (State.pinChange s i m high).base = s.base := by
  grind [State.pinChange, State.base, State.outside, rawChange_base]

theorem acceptLevel_base (s : State) (i : Nat) (c : Candidate) : (State.acceptLevel s i c).base = s.base := by
  grind [State.acceptLevel, State.base, State.outside, updTrack_base]

theorem startFilters_base (s : State) : (State.startFilters s).base = s.base := by
  grind [State.startFilters, State.base, State.outside]

theorem gateEnds_base (s : State) (k edges : Nat) : (State.gateEnds s k edges).base = s.base := by
  grind [State.gateEnds, State.base, State.outside, updSec_outside, completeGate_outside]

theorem readyRises_base (s : State) : (State.readyRises s).base = s.base := by
  grind [State.readyRises, State.base, State.outside, post_outside, pump_outside, phraseDone_outside]

theorem readyFalls_base (s : State) : (State.readyFalls s).base = s.base := by
  grind [State.readyFalls, State.base, State.outside, reloadPlayer_outside]

theorem takeStatus_base (s : State) (r : Received) (b : StatusBody) : (State.takeStatus s r b).base = s.base := by
  grind [State.takeStatus, State.base, State.outside, setClockFrom_base, keepOffset_outside, updateMirrors_outside,
      hoeStatus_outside, hearStatus_outside]

theorem storeAnswer_base (s : State) (i : Nat) (b : AnswerBody) : (State.storeAnswer s i b).base = s.base := by
  grind [State.storeAnswer, State.base, State.outside]

theorem dayDirective_base (s : State) (t : Nat) : (State.dayDirective s t).1.base = s.base := by
  grind [State.dayDirective, State.base, State.outside, setClockTo_base, purgeLaunch_outside]

theorem carryOut_base (s : State) (sender : Nat) (x0 : Directive) : (State.carryOut s sender x0).1.base = s.base := by
  unfold State.carryOut; (repeat' split) <;> grind [State.base, State.outside, isolateDirective_outside,
      restoreDirective_outside, setModeDirective_outside, ackDirective_outside, clearDirective_outside,
      declareDirective_outside, overflowDirective_outside, holdDirective_outside, withdrawDirective_outside,
      insertDirective_outside, announceDirective_outside, cancelDirective_outside, dayDirective_base]

theorem ownerStep_base (s : State) (i sender serial : Nat) (d : Directive) :
    (State.ownerStep s i sender serial d).base = s.base := by
  grind [State.ownerStep, State.base, State.outside, sendAnswer_outside, storeAnswer_base, carryOut_base,
      orderRestart_outside]

theorem refuseStep_base (s : State) (i sender serial : Nat) (d : Directive) (r : AnswerResult) :
    (State.refuseStep s i sender serial d r).base = s.base := by
  grind [State.refuseStep, State.base, State.outside, sendAnswer_outside, storeAnswer_base]

theorem checkDirective_base (s : State) (i level sender serial : Nat) (d : Directive) :
    (State.checkDirective s i level sender serial d).base = s.base := by
  grind [State.checkDirective, State.base, State.outside, ownerStep_base, refuseStep_base]

theorem takeDirective_base (s : State) (sender serial : Nat) (d : Directive) :
    (State.takeDirective s sender serial d).base = s.base := by
  grind [State.takeDirective, State.base, State.outside, sendAnswer_outside, checkDirective_base]

theorem takeOrder_base (s : State) (r : Report) : (State.takeOrder s r).base = s.base := by
  unfold State.takeOrder; (repeat' split) <;> grind [State.base, State.outside, send_outside, handStage_outside,
      stage_outside, takeDirective_base, localResult_outside, appendEntry_outside]

theorem workstation_base (s : State) (r : Report) : (State.workstation s r).base = s.base := by
  grind [State.workstation, State.base, State.outside, localResult_outside, takeOrder_base]

theorem setReset_base (s : State) (low : Bool) : (State.setReset s low).base = s.base := by
  grind [State.setReset, State.base, State.outside]

theorem enterListen_base (s : State) : (State.enterListen s).base = s.base := by
  grind [State.enterListen, State.base, State.outside, startStatusPeriod_outside, initWatched_outside,
      requestSweep_outside, startFilters_base, startGates_outside, firstBreakerReports_outside, firstPointReports_outside,
      authoritiesOff_outside, raiseLostLink_outside, State.beginListen]

theorem enterFault_base (s : State) : (State.enterFault s).base = s.base := by
  grind [State.enterFault, State.base, State.outside]

theorem accept_base (s : State) (i : Nat) (x : Nat × Candidate) : (State.accept s i x).base = s.base := by
  grind [State.accept, State.base, State.outside, acceptLevel_base]

theorem takePoint_base (s : State) (n v : Nat) : (State.takePoint s n v).base = s.base := by
  grind [State.takePoint, State.base, State.outside, setPoint_base, breaker_outside, breakerReport_outside,
      pointReport_outside]

/-! ## The queue of commands -/

theorem pending_of_outside {s t : State} (h : t.outside = s.outside) : t.pending = s.pending := by
  grind [State.outside]

theorem pending_of_base {s t : State} (h : t.base = s.base) : t.pending = s.pending := by grind [State.base]

theorem finish_pending (s : State) : (finish s).pending = s.pending := by
  have h := finish_outside s
  grind [State.outside]

/-- A telegram's taking keeps the queue of commands when its block's part does. -/
theorem onReceived_pending (s : State) (want : Body → Bool) (f : Received → State → State)
    (hf : ∀ r u, (f r u).pending = u.pending) : (s.onReceived want f).pending = s.pending := by
  unfold State.onReceived State.takeTelegram
  split
  · rfl
  · split
    · have h1 := forward_outside s.popRx
      have h2 : s.popRx.pending = s.pending := rfl
      dsimp only
      split <;> grind [State.outside]
    · rfl

theorem onTelegram_pending (s : State) (want : Body → Bool) (f : Telegram → State → State)
    (hf : ∀ t u, (f t u).pending = u.pending) : (s.onTelegram want f).pending = s.pending :=
  onReceived_pending s want _ (fun r u => hf r.tg u)

/-- A report's taking keeps it when its block's part does. -/
theorem takeReport_pending (s : State) (want : Report → Bool) (f : Report → State → State)
    (hf : ∀ r u, (f r u).pending = u.pending) : (s.takeReport want f).pending = s.pending := by
  unfold State.takeReport
  split
  · rfl
  · split <;> simp [hf]

theorem onKind_pending (s t : State) (want : Body → Bool) (f : Telegram → State → State)
    (hf : ∀ x u, (f x u).pending = u.pending) (h : onKind s want f = .next t) : t.pending = s.pending :=
  onEvent_keeps State.pending s t _ _ (onTelegram_pending s want f hf) finish_pending h

theorem onReceivedKind_pending (s t : State) (want : Body → Bool) (f : Received → State → State)
    (hf : ∀ r u, (f r u).pending = u.pending) (h : onReceivedKind s want f = .next t) : t.pending = s.pending :=
  onEvent_keeps State.pending s t _ _ (onReceived_pending s want f hf) finish_pending h

theorem onDirectiveKind_pending (s t : State) (want : Directive → Bool) (h : onDirectiveKind s want = .next t) :
    t.pending = s.pending :=
  onKind_pending s t _ _ (by intro x u; split <;> grind [takeDirective_base, State.base]) h

theorem onReport_pending (s t : State) (want : Report → Bool) (f : Report → State → State)
    (hf : ∀ r u, (f r u).pending = u.pending) (h : onReport s want f = .next t) : t.pending = s.pending :=
  onEvent_keeps State.pending s t _ _ (takeReport_pending s want f hf) finish_pending h

end Sys2Proof.Machine
end

