-- ==== Sys2Proof/Laws/Commands.lean ====
section
/-! SUPPORT. What each command leaves of `State.outside`: one lemma for each command of a running part. -/

namespace Sys2Proof.Machine

open Sys2Proof

/-! ## Shapes -/

/-- The two ends of an event, and what its end leaves of the outside part. -/
theorem onEvent_outside (s t : State) (o : Bool) (f : State → State) (h : onEvent s o f = .next t) :
    t = s ∨ (o = true ∧ t.outside = { (f s).outside with start := t.cfl.start } ∧
      ((f s).cfl.start ≠ .rebuild → t.outside = (f s).outside)) := by
  rcases onEvent_cases s t o f h with h | ⟨_, ho, h⟩
  · exact .inl h
  · subst h
    exact .inr ⟨ho, finish_outside _, finish_stays _⟩

/-- The end of an event whose own effect leaves the outside part as it is. -/
theorem onEvent_same (s t : State) (o : Bool) (f : State → State) (hf : (f s).outside = s.outside)
    (h : onEvent s o f = .next t) :
    t.outside = { s.outside with start := t.cfl.start } ∧ (s.cfl.start ≠ .rebuild → t.cfl.start = s.cfl.start) := by
  rcases onEvent_outside s t o f h with h | ⟨_, h1, h2⟩
  · subst h; exact ⟨rfl, fun _ => rfl⟩
  · grind [State.outside]

theorem onReceived_outside (s : State) (want : Body → Bool) (f : Received → State → State)
    (hf : ∀ x u, (f x u).outside = u.outside) :
    (s.onReceived want f).outside = { s.outside with rx := (s.onReceived want f).lbc.rx } := by
  unfold State.onReceived State.takeTelegram
  split
  · rfl
  · split
    · have h1 := forward_outside s.popRx
      have h2 : s.popRx.outside = { s.outside with rx := s.popRx.lbc.rx } := rfl
      dsimp only
      split <;> grind [State.outside]
    · rfl

/-- A telegram's command moves the receive queue alone when its block's part moves nothing. -/
theorem onKind_outside (s t : State) (want : Body → Bool) (f : Telegram → State → State)
    (hf : ∀ x u, (f x u).outside = u.outside) (h : onKind s want f = .next t) :
    t.outside = { s.outside with start := t.cfl.start, rx := t.lbc.rx } ∧
      (s.cfl.start ≠ .rebuild → t.cfl.start = s.cfl.start) := by
  have h3 : (s.onTelegram want f).outside = { s.outside with rx := (s.onTelegram want f).lbc.rx } :=
    onReceived_outside s want _ (fun x u => hf x.tg u)
  rcases onEvent_outside s t _ _ h with h | ⟨_, h1, h2⟩
  · subst h; exact ⟨rfl, fun _ => rfl⟩
  · grind [State.outside]

theorem onReceived_moves (s : State) (want : Body → Bool) (f : Received → State → State)
    (hf : ∀ x u, (f x u).outside = { u.outside with dck := (f x u).dck, clock := (f x u).tiu.clock }) :
    (s.onReceived want f).outside = { s.outside with
      rx := (s.onReceived want f).lbc.rx
      dck := (s.onReceived want f).dck
      clock := (s.onReceived want f).tiu.clock } := by
  unfold State.onReceived State.takeTelegram
  split
  · rfl
  · split
    · have h1 := forward_outside s.popRx
      have h2 : s.popRx.outside = { s.outside with rx := s.popRx.lbc.rx } := rfl
      dsimp only
      split <;> grind [State.outside]
    · rfl

/-- A telegram's command whose block's part moves the clock or the stored answers. -/
theorem onReceivedKind_moves (s t : State) (want : Body → Bool) (f : Received → State → State)
    (hf : ∀ x u, (f x u).outside = { u.outside with dck := (f x u).dck, clock := (f x u).tiu.clock })
    (h : onReceivedKind s want f = .next t) :
    t.outside = { s.outside with start := t.cfl.start, rx := t.lbc.rx, dck := t.dck, clock := t.tiu.clock } ∧
      (s.cfl.start ≠ .rebuild → t.cfl.start = s.cfl.start) := by
  have h3 := onReceived_moves s want f hf
  rcases onEvent_outside s t _ _ h with h | ⟨_, h1, h2⟩
  · subst h; exact ⟨rfl, fun _ => rfl⟩
  · grind [State.outside]

theorem onKind_moves (s t : State) (want : Body → Bool) (f : Telegram → State → State)
    (hf : ∀ x u, (f x u).outside = { u.outside with dck := (f x u).dck, clock := (f x u).tiu.clock })
    (h : onKind s want f = .next t) :
    t.outside = { s.outside with start := t.cfl.start, rx := t.lbc.rx, dck := t.dck, clock := t.tiu.clock } ∧
      (s.cfl.start ≠ .rebuild → t.cfl.start = s.cfl.start) :=
  onReceivedKind_moves s t want _ (fun x u => hf x.tg u) h

theorem onReport_moves (s t : State) (want : Report → Bool) (f : Report → State → State)
    (hf : ∀ r u, (f r u).outside =
        { u.outside with dck := (f r u).dck, clock := (f r u).tiu.clock, image := (f r u).slc.image })
    (h : onReport s want f = .next t) :
    t.outside = { s.outside with
      start := t.cfl.start, reports := t.slc.reports, dck := t.dck, clock := t.tiu.clock, image := t.slc.image } ∧
      (s.cfl.start ≠ .rebuild → t.cfl.start = s.cfl.start) := by
  have h3 : (s.takeReport want f).outside = { s.outside with
      reports := (s.takeReport want f).slc.reports
      dck := (s.takeReport want f).dck
      clock := (s.takeReport want f).tiu.clock
      image := (s.takeReport want f).slc.image } := by
    unfold State.takeReport
    split
    · rfl
    · split
      · rename_i r rs _ _
        have := hf r { s with slc := { s.slc with reports := rs } }
        grind [State.outside]
      · rfl
  rcases onEvent_outside s t _ _ h with h | ⟨_, h1, h2⟩
  · subst h; exact ⟨rfl, fun _ => rfl⟩
  · grind [State.outside]

/-- A report's command moves the report FIFO alone when its block's part moves nothing. -/
theorem onReport_outside (s t : State) (want : Report → Bool) (f : Report → State → State)
    (hf : ∀ r u, (f r u).outside = u.outside) (h : onReport s want f = .next t) :
    t.outside = { s.outside with start := t.cfl.start, reports := t.slc.reports } ∧
      (s.cfl.start ≠ .rebuild → t.cfl.start = s.cfl.start) := by
  have h3 : (s.takeReport want f).outside = { s.outside with reports := (s.takeReport want f).slc.reports } := by
    unfold State.takeReport
    split
    · rfl
    · split
      · rename_i r rs _ _
        have := hf r { s with slc := { s.slc with reports := rs } }
        grind [State.outside]
      · rfl
  rcases onEvent_outside s t _ _ h with h | ⟨_, h1, h2⟩
  · subst h; exact ⟨rfl, fun _ => rfl⟩
  · grind [State.outside]

/-- An event at a cycle moves the reference moment alone when its own effect moves nothing. -/
theorem onCycle_outside (s t : State) (cycle : Nat) (occasion : Nat → Bool) (f : Nat → State → State)
    (hf : ∀ m u, (f m u).outside = u.outside) (h : onCycle s cycle occasion f = .next t) :
    t.outside = { s.outside with start := t.cfl.start, refMoment := t.refMoment } ∧
      (s.cfl.start ≠ .rebuild → t.cfl.start = s.cfl.start) := by
  have h3 : (s.atCycle cycle occasion f).outside =
      { s.outside with refMoment := (s.atCycle cycle occasion f).refMoment } := by
    unfold State.atCycle
    split
    · split
      · rename_i m _ _
        have := hf m { s with refMoment := m }
        grind [State.outside]
      · rfl
    · rfl
  rcases onEvent_outside s t _ _ h with h | ⟨_, h1, h2⟩
  · subst h; exact ⟨rfl, fun _ => rfl⟩
  · grind [State.outside]

theorem accept_outside (s : State) (i : Nat) (x : Nat × Candidate) :
    (s.accept i x).outside = { s.outside with refMoment := x.1, tracks := (s.accept i x).slc.tracks } := rfl

/-- An accepted edge moves the reference moment and the filters alone when its own effect moves nothing. -/
theorem onEdge_outside (s t : State) (i cycle : Nat) (active : Bool) (use : TrackUse → Option Nat)
    (f : Nat → Option Nat → State → State) (hf : ∀ p x u, (f p x u).outside = u.outside)
    (h : onEdge s i cycle active use f = .next t) :
    t.outside = { s.outside with start := t.cfl.start, refMoment := t.refMoment, tracks := t.slc.tracks } ∧
      (s.cfl.start ≠ .rebuild → t.cfl.start = s.cfl.start) := by
  unfold onEdge at h
  split at h
  · rename_i x p _ _
    have h3 := hf p x.2.stamp (s.accept i x)
    have h4 := accept_outside s i x
    rcases onEvent_outside s t _ _ h with h | ⟨_, h1, h2⟩
    · subst h; exact ⟨rfl, fun _ => rfl⟩
    · grind [State.outside]
  · rcases onEvent_outside s t _ _ h with h | ⟨h0, _⟩
    · subst h; exact ⟨rfl, fun _ => rfl⟩
    · exact absurd h0 (by simp)

/-- An event of a platform moves nothing when its own effect moves nothing. -/
theorem onPlatform_outside (s t : State) (p : Nat) (occasion : Bool) (f : PlatformCfg → State → State)
    (hf : ∀ c u, (f c u).outside = u.outside) (h : onPlatform s p occasion f = .next t) :
    t.outside = { s.outside with start := t.cfl.start } ∧ (s.cfl.start ≠ .rebuild → t.cfl.start = s.cfl.start) := by
  unfold onPlatform at h
  split at h
  · exact onEvent_same s t _ _ (hf _ s) h
  · rcases onEvent_outside s t _ _ h with h | ⟨h0, _⟩
    · subst h; exact ⟨rfl, fun _ => rfl⟩
    · exact absurd h0 (by simp)

/-! ## Effects that move the clock or the stored answers -/

theorem setClockFrom_outside (s : State) (n : Nat) (b : StatusBody) :
    (s.setClockFrom n b).outside = { s.outside with clock := (s.setClockFrom n b).tiu.clock } := by
  unfold State.setClockFrom; (repeat' split) <;> rfl

theorem takeStatus_moves (s : State) (r : Received) (b : StatusBody) :
    (s.takeStatus r b).outside =
      { s.outside with dck := (s.takeStatus r b).dck, clock := (s.takeStatus r b).tiu.clock } := by
  have h := setClockFrom_outside ((s.hearStatus r.tg.sender r.time b).keepOffset r.tg.sender b r.stamp) r.tg.sender b
  unfold State.takeStatus
  grind [State.outside, hearStatus_outside, keepOffset_outside, hoeStatus_outside, updateMirrors_outside]

theorem carryOut_moves (s : State) (n : Nat) (d : Directive) :
    (s.carryOut n d).1.outside = { s.outside with clock := (s.carryOut n d).1.tiu.clock } := by
  have hd : ∀ t, (s.dayDirective t).1.outside = { s.outside with clock := (s.dayDirective t).1.tiu.clock } := by
    intro t; unfold State.dayDirective; split <;> rfl
  unfold State.carryOut
  (repeat' split) <;> grind [State.outside, isolateDirective_outside, restoreDirective_outside,
      setModeDirective_outside,
    ackDirective_outside, clearDirective_outside, declareDirective_outside, overflowDirective_outside,
    holdDirective_outside, withdrawDirective_outside, insertDirective_outside, announceDirective_outside,
    cancelDirective_outside]

theorem storeAnswer_moves (s : State) (i : Nat) (b : AnswerBody) :
    (s.storeAnswer i b).outside = { s.outside with dck := (s.storeAnswer i b).dck } := rfl

theorem takeDirective_moves (s : State) (n serial : Nat) (d : Directive) :
    (s.takeDirective n serial d).outside = { s.outside with
      dck := (s.takeDirective n serial d).dck, clock := (s.takeDirective n serial d).tiu.clock } := by
  have h1 : ∀ (u : State) i d, (u.ownerStep i n serial d).outside = { u.outside with
      dck := (u.ownerStep i n serial d).dck, clock := (u.ownerStep i n serial d).tiu.clock } := by
    intro u i d
    have a := carryOut_moves u n d
    unfold State.ownerStep
    dsimp only
    grind [State.outside, sendAnswer_outside, storeAnswer_moves, orderRestart_outside]
  have h2 : ∀ (u : State) i d r, (u.refuseStep i n serial d r).outside = { u.outside with
      dck := (u.refuseStep i n serial d r).dck, clock := (u.refuseStep i n serial d r).tiu.clock } := by
    intro u i d r
    unfold State.refuseStep
    grind [State.outside, sendAnswer_outside, storeAnswer_moves]
  unfold State.takeDirective
  (repeat' split) <;> (try unfold State.checkDirective) <;> (repeat' split) <;> grind [State.outside,
      sendAnswer_outside]

theorem workstation_moves (s : State) (r : Report) :
    (s.workstation r).outside = { s.outside with
      dck := (s.workstation r).dck, clock := (s.workstation r).tiu.clock, image := (s.workstation r).slc.image } := by
  unfold State.workstation
  split
  · unfold State.takeOrder
    (repeat' split) <;> grind [State.outside, send_outside, handStage_outside, takeDirective_moves,
        localResult_outside, appendEntry_outside]
  · grind [State.outside, localResult_outside]

theorem onDirectiveKind_outside (s t : State) (want : Directive → Bool) (h : onDirectiveKind s want = .next t) :
    t.outside = { s.outside with start := t.cfl.start, rx := t.lbc.rx, dck := t.dck, clock := t.tiu.clock } ∧
      (s.cfl.start ≠ .rebuild → t.cfl.start = s.cfl.start) :=
  onKind_moves s t _ _ (by intro x u; dsimp only; split <;> first | exact takeDirective_moves _ _ _ _ | rfl) h

/-! ## Commands -/

theorem execRecloseDelayExpiry_outside (record : Nat) (s t : State) (h : execRecloseDelayExpiry record s = .next t) :
    t.outside = { s.outside with start := t.cfl.start } ∧
      (s.cfl.start ≠ .rebuild → t.cfl.start = s.cfl.start) := by
  exact onEvent_same s t _ _ (by grind [State.outside, reclose_outside]) h

theorem execCloseAllowanceExpiry_outside (record : Nat) (s t : State)
    (h : execCloseAllowanceExpiry record s = .next t) :
    t.outside = { s.outside with start := t.cfl.start } ∧
      (s.cfl.start ≠ .rebuild → t.cfl.start = s.cfl.start) := by
  exact onEvent_same s t _ _ (by grind [State.outside, lockOut_outside]) h

theorem execIsolateSection_outside (s t : State) (h : execIsolateSection s = .next t) :
    t.outside = { s.outside with start := t.cfl.start, rx := t.lbc.rx, dck := t.dck, clock := t.tiu.clock } ∧
      (s.cfl.start ≠ .rebuild → t.cfl.start = s.cfl.start) := by
  exact onDirectiveKind_outside s t _ h

theorem execRestoreSection_outside (s t : State) (h : execRestoreSection s = .next t) :
    t.outside = { s.outside with start := t.cfl.start, rx := t.lbc.rx, dck := t.dck, clock := t.tiu.clock } ∧
      (s.cfl.start ≠ .rebuild → t.cfl.start = s.cfl.start) := by
  exact onDirectiveKind_outside s t _ h

theorem execBerthRise_outside (input cycle : Nat) (s t : State) (h : execBerthRise input cycle s = .next t) :
    t.outside = { s.outside with start := t.cfl.start, refMoment := t.refMoment, tracks := t.slc.tracks } ∧
      (s.cfl.start ≠ .rebuild → t.cfl.start = s.cfl.start) := by
  exact onEdge_outside s t _ _ _ _ _ (by intro p x u; grind [State.outside, riseAt_outside]) h

theorem execBrakePointRise_outside (input cycle : Nat) (s t : State) (h : execBrakePointRise input cycle s = .next t) :
    t.outside = { s.outside with start := t.cfl.start, refMoment := t.refMoment, tracks := t.slc.tracks } ∧
      (s.cfl.start ≠ .rebuild → t.cfl.start = s.cfl.start) := by
  exact onEdge_outside s t _ _ _ _ _ (by intro p x u; grind [State.outside, brakeAt_outside]) h

theorem execBerthFall_outside (input cycle : Nat) (s t : State) (h : execBerthFall input cycle s = .next t) :
    t.outside = { s.outside with start := t.cfl.start, refMoment := t.refMoment, tracks := t.slc.tracks } ∧
      (s.cfl.start ≠ .rebuild → t.cfl.start = s.cfl.start) := by
  exact onEdge_outside s t _ _ _ _ _ (by intro p x u; grind [State.outside, fallAt_outside]) h

theorem execBrakePointFall_outside (input cycle : Nat) (s t : State) (h : execBrakePointFall input cycle s = .next t) :
    t.outside = { s.outside with start := t.cfl.start, refMoment := t.refMoment, tracks := t.slc.tracks } ∧
      (s.cfl.start ≠ .rebuild → t.cfl.start = s.cfl.start) := by
  exact onEdge_outside s t _ _ _ _ _ (by intro p x u; grind [State.outside]) h

theorem execCountedStartExpiry_outside (record : Nat) (s t : State) (h : execCountedStartExpiry record s = .next t) :
    t.outside = { s.outside with start := t.cfl.start } ∧
      (s.cfl.start ≠ .rebuild → t.cfl.start = s.cfl.start) := by
  exact onEvent_same s t _ _ (by grind [State.outside, countedEnd_outside]) h

theorem execRetryWaitEnd_outside (platform : Nat) (s t : State) (h : execRetryWaitEnd platform s = .next t) :
    t.outside = { s.outside with start := t.cfl.start } ∧
      (s.cfl.start ≠ .rebuild → t.cfl.start = s.cfl.start) := by
  exact onEvent_same s t _ _ (by grind [State.outside, presentAgain_outside]) h

theorem execAskWaitEnd_outside (platform : Nat) (s t : State) (h : execAskWaitEnd platform s = .next t) :
    t.outside = { s.outside with start := t.cfl.start } ∧
      (s.cfl.start ≠ .rebuild → t.cfl.start = s.cfl.start) := by
  exact onEvent_same s t _ _ (by grind [State.outside, askAgain_outside]) h

theorem execPowerAsk_outside (s t : State) (h : execPowerAsk s = .next t) :
    t.outside = { s.outside with start := t.cfl.start, rx := t.lbc.rx } ∧
      (s.cfl.start ≠ .rebuild → t.cfl.start = s.cfl.start) := by
  exact onKind_outside s t _ _
    (by intro x u; (try dsimp only); (repeat' split) <;> try grind [State.outside, ownerAsk_outside]) h

theorem execQueuedAskRefreshExpiry_outside (record : Nat) (s t : State)
    (h : execQueuedAskRefreshExpiry record s = .next t) :
    t.outside = { s.outside with start := t.cfl.start } ∧
      (s.cfl.start ≠ .rebuild → t.cfl.start = s.cfl.start) := by
  exact onEvent_same s t _ _ (by grind [State.outside, unheardAsk_outside]) h

theorem execPowerReturn_outside (s t : State) (h : execPowerReturn s = .next t) :
    t.outside = { s.outside with start := t.cfl.start, rx := t.lbc.rx } ∧
      (s.cfl.start ≠ .rebuild → t.cfl.start = s.cfl.start) := by
  exact onKind_outside s t _ _
    (by intro x u; (try dsimp only); (repeat' split) <;> try grind [State.outside, ownerReturn_outside]) h

theorem execPowerGrant_outside (s t : State) (h : execPowerGrant s = .next t) :
    t.outside = { s.outside with start := t.cfl.start, rx := t.lbc.rx } ∧
      (s.cfl.start ≠ .rebuild → t.cfl.start = s.cfl.start) := by
  exact onKind_outside s t _ _
    (by intro x u; (try dsimp only); (repeat' split) <;> try grind [State.outside, askerGrant_outside]) h

theorem execPowerDefer_outside (s t : State) (h : execPowerDefer s = .next t) :
    t.outside = { s.outside with start := t.cfl.start, rx := t.lbc.rx } ∧
      (s.cfl.start ≠ .rebuild → t.cfl.start = s.cfl.start) := by
  exact onKind_outside s t _ _
    (by intro x u; (try dsimp only); (repeat' split) <;> try grind [State.outside, askerDefer_outside]) h

theorem execTakenStartExpiry_outside (record : Nat) (s t : State) (h : execTakenStartExpiry record s = .next t) :
    t.outside = { s.outside with start := t.cfl.start } ∧
      (s.cfl.start ≠ .rebuild → t.cfl.start = s.cfl.start) := by
  exact onEvent_same s t _ _ (by grind [State.outside, takenEnd_outside]) h

theorem execHandoverRetryExpiry_outside (tag : Nat) (s t : State) (h : execHandoverRetryExpiry tag s = .next t) :
    t.outside = { s.outside with start := t.cfl.start } ∧
      (s.cfl.start ≠ .rebuild → t.cfl.start = s.cfl.start) := by
  exact onEvent_same s t _ _ (by grind [State.outside, retryExpires_outside]) h

theorem execOrphanRetryExpiry_outside (tag : Nat) (s t : State) (h : execOrphanRetryExpiry tag s = .next t) :
    t.outside = { s.outside with start := t.cfl.start } ∧
      (s.cfl.start ≠ .rebuild → t.cfl.start = s.cfl.start) := by
  exact onEvent_same s t _ _ (by grind [State.outside, endOrphanRetry_outside]) h

theorem execHandover_outside (s t : State) (h : execHandover s = .next t) :
    t.outside = { s.outside with start := t.cfl.start, rx := t.lbc.rx } ∧
      (s.cfl.start ≠ .rebuild → t.cfl.start = s.cfl.start) := by
  exact onKind_outside s t _ _
    (by intro x u; (try dsimp only); (repeat' split) <;> try grind [State.outside, takeHandover_outside]) h

theorem execTakeover_outside (s t : State) (h : execTakeover s = .next t) :
    t.outside = { s.outside with start := t.cfl.start, rx := t.lbc.rx } ∧
      (s.cfl.start ≠ .rebuild → t.cfl.start = s.cfl.start) := by
  exact onKind_outside s t _ _
    (by intro x u; (try dsimp only); (repeat' split) <;> try grind [State.outside, endHandover_outside]) h

theorem execRefusal_outside (s t : State) (h : execRefusal s = .next t) :
    t.outside = { s.outside with start := t.cfl.start, rx := t.lbc.rx } ∧
      (s.cfl.start ≠ .rebuild → t.cfl.start = s.cfl.start) := by
  exact onKind_outside s t _ _
    (by intro x u; (try dsimp only); (repeat' split) <;> try grind [State.outside, takeRefusal_outside]) h

theorem execStallWatchExpiry_outside (tag : Nat) (s t : State) (h : execStallWatchExpiry tag s = .next t) :
    t.outside = { s.outside with start := t.cfl.start } ∧
      (s.cfl.start ≠ .rebuild → t.cfl.start = s.cfl.start) := by
  exact onEvent_same s t _ _ (by grind [State.outside, watchExpires_outside]) h

theorem execRenewAsk_outside (s t : State) (h : execRenewAsk s = .next t) :
    t.outside = { s.outside with start := t.cfl.start, rx := t.lbc.rx } ∧
      (s.cfl.start ≠ .rebuild → t.cfl.start = s.cfl.start) := by
  exact onKind_outside s t _ _
    (by intro x u; (try dsimp only); (repeat' split) <;> try grind [State.outside, answerRenewal_outside]) h

theorem execRenewReply_outside (s t : State) (h : execRenewReply s = .next t) :
    t.outside = { s.outside with start := t.cfl.start, rx := t.lbc.rx } ∧
      (s.cfl.start ≠ .rebuild → t.cfl.start = s.cfl.start) := by
  exact onKind_outside s t _ _
    (by intro x u; (try dsimp only); (repeat' split) <;> try grind [State.outside, takeRenewal_outside]) h

theorem execAckIncident_outside (s t : State) (h : execAckIncident s = .next t) :
    t.outside = { s.outside with start := t.cfl.start, rx := t.lbc.rx, dck := t.dck, clock := t.tiu.clock } ∧
      (s.cfl.start ≠ .rebuild → t.cfl.start = s.cfl.start) := by
  exact onDirectiveKind_outside s t _ h

theorem execClearIncident_outside (s t : State) (h : execClearIncident s = .next t) :
    t.outside = { s.outside with start := t.cfl.start, rx := t.lbc.rx, dck := t.dck, clock := t.tiu.clock } ∧
      (s.cfl.start ≠ .rebuild → t.cfl.start = s.cfl.start) := by
  exact onDirectiveKind_outside s t _ h

theorem execDeclareIncident_outside (s t : State) (h : execDeclareIncident s = .next t) :
    t.outside = { s.outside with start := t.cfl.start, rx := t.lbc.rx, dck := t.dck, clock := t.tiu.clock } ∧
      (s.cfl.start ≠ .rebuild → t.cfl.start = s.cfl.start) := by
  exact onDirectiveKind_outside s t _ h

theorem execClearOverflow_outside (s t : State) (h : execClearOverflow s = .next t) :
    t.outside = { s.outside with start := t.cfl.start, rx := t.lbc.rx, dck := t.dck, clock := t.tiu.clock } ∧
      (s.cfl.start ≠ .rebuild → t.cfl.start = s.cfl.start) := by
  exact onDirectiveKind_outside s t _ h

theorem execClearedLingerEnd_outside (origin serial : Nat) (s t : State)
    (h : execClearedLingerEnd origin serial s = .next t) :
    t.outside = { s.outside with start := t.cfl.start } ∧
      (s.cfl.start ≠ .rebuild → t.cfl.start = s.cfl.start) := by
  exact onEvent_same s t _ _ (by grind [State.outside, lingerEnds_outside]) h

theorem execEscalationExpiry_outside (serial : Nat) (s t : State) (h : execEscalationExpiry serial s = .next t) :
    t.outside = { s.outside with start := t.cfl.start } ∧
      (s.cfl.start ≠ .rebuild → t.cfl.start = s.cfl.start) := by
  exact onEvent_same s t _ _ (by grind [State.outside, escalates_outside]) h

theorem execIncident_outside (s t : State) (h : execIncident s = .next t) :
    t.outside = { s.outside with start := t.cfl.start, rx := t.lbc.rx } ∧
      (s.cfl.start ≠ .rebuild → t.cfl.start = s.cfl.start) := by
  exact onKind_outside s t _ _
    (by intro x u; (try dsimp only); (repeat' split) <;> try grind [State.outside, takeIncident_outside]) h

theorem execPeerAgeing_outside (origin serial : Nat) (s t : State) (h : execPeerAgeing origin serial s = .next t) :
    t.outside = { s.outside with start := t.cfl.start } ∧
      (s.cfl.start ≠ .rebuild → t.cfl.start = s.cfl.start) := by
  exact onEvent_same s t _ _ (by grind [State.outside, peerAges_outside]) h

theorem execIncidentRefresh_outside (serial : Nat) (s t : State) (h : execIncidentRefresh serial s = .next t) :
    t.outside = { s.outside with start := t.cfl.start } ∧
      (s.cfl.start ≠ .rebuild → t.cfl.start = s.cfl.start) := by
  exact onEvent_same s t _ _ (by grind [State.outside, refreshInc_outside]) h

theorem execTransmitStart_outside (cycle quiet : Nat) (echoed : Bool) (s t : State)
    (h : execTransmitStart cycle quiet echoed s = .next t) :
    t.outside = { s.outside with start := t.cfl.start, refMoment := t.refMoment } ∧
      (s.cfl.start ≠ .rebuild → t.cfl.start = s.cfl.start) := by
  exact onCycle_outside s t _ _ _ (by intro m u; grind [State.outside, transmit_outside]) h

theorem execTelegramSent_outside (cycle : Nat) (s t : State) (h : execTelegramSent cycle s = .next t) :
    t.outside = { s.outside with start := t.cfl.start, refMoment := t.refMoment } ∧
      (s.cfl.start ≠ .rebuild → t.cfl.start = s.cfl.start) := by
  exact onCycle_outside s t _ _ _ (by intro m u; grind [State.outside, sentWhole_outside]) h

theorem execCollision_outside (cycle : Nat) (s t : State) (h : execCollision cycle s = .next t) :
    t.outside = { s.outside with start := t.cfl.start, refMoment := t.refMoment } ∧
      (s.cfl.start ≠ .rebuild → t.cfl.start = s.cfl.start) := by
  exact onCycle_outside s t _ _ _ (by intro m u; grind [State.outside, collide_outside]) h

theorem execEchoFault_outside (cycle : Nat) (s t : State) (h : execEchoFault cycle s = .next t) :
    t.outside = { s.outside with start := t.cfl.start, refMoment := t.refMoment } ∧
      (s.cfl.start ≠ .rebuild → t.cfl.start = s.cfl.start) := by
  exact onCycle_outside s t _ _ _ (by intro m u; grind [State.outside, faultEcho_outside]) h

theorem execLineBusFaultQuietEnd_outside (s t : State) (h : execLineBusFaultQuietEnd s = .next t) :
    t.outside = { s.outside with start := t.cfl.start } ∧
      (s.cfl.start ≠ .rebuild → t.cfl.start = s.cfl.start) := by
  exact onEvent_same s t _ _ (by grind [State.outside, endLineFault_outside]) h

theorem execFragment_outside (cycle : Nat) (bytes : Bytes) (s t : State) (h : execFragment cycle bytes s = .next t) :
    t.outside = { s.outside with start := t.cfl.start, refMoment := t.refMoment } ∧
      (s.cfl.start ≠ .rebuild → t.cfl.start = s.cfl.start) := by
  exact onCycle_outside s t _ _ _ (by intro m u; grind [State.outside, receiveFragment_outside]) h

theorem execStatus_outside (s t : State) (h : execStatus s = .next t) :
    t.outside = { s.outside with start := t.cfl.start, rx := t.lbc.rx, dck := t.dck, clock := t.tiu.clock } ∧
      (s.cfl.start ≠ .rebuild → t.cfl.start = s.cfl.start) := by
  exact onReceivedKind_moves s t _ _ (by intro x u; dsimp only; split <;> first | exact takeStatus_moves _ _ _ | rfl) h

theorem execNeighbourAbsent_outside (node : Nat) (s t : State) (h : execNeighbourAbsent node s = .next t) :
    t.outside = { s.outside with start := t.cfl.start } ∧
      (s.cfl.start ≠ .rebuild → t.cfl.start = s.cfl.start) := by
  exact onEvent_same s t _ _ (by grind [State.outside, ageWatch_outside]) h

theorem execPlanOpen_outside (s t : State) (h : execPlanOpen s = .next t) :
    t.outside = { s.outside with start := t.cfl.start, rx := t.lbc.rx } ∧
      (s.cfl.start ≠ .rebuild → t.cfl.start = s.cfl.start) := by
  exact onKind_outside s t _ _
    (by intro x u; (try dsimp only); (repeat' split) <;> try grind [State.outside, takePlanOpen_outside]) h

theorem execPlanBlock_outside (s t : State) (h : execPlanBlock s = .next t) :
    t.outside = { s.outside with start := t.cfl.start, rx := t.lbc.rx } ∧
      (s.cfl.start ≠ .rebuild → t.cfl.start = s.cfl.start) := by
  exact onKind_outside s t _ _
    (by intro x u; (try dsimp only); (repeat' split) <;> try grind [State.outside, takePlanBlock_outside]) h

theorem execPlanClose_outside (s t : State) (h : execPlanClose s = .next t) :
    t.outside = { s.outside with start := t.cfl.start, rx := t.lbc.rx } ∧
      (s.cfl.start ≠ .rebuild → t.cfl.start = s.cfl.start) := by
  exact onKind_outside s t _ _
    (by intro x u; (try dsimp only); (repeat' split) <;> try grind [State.outside, takePlanClose_outside]) h

theorem execPlanTimerExpiry_outside (s t : State) (h : execPlanTimerExpiry s = .next t) :
    t.outside = { s.outside with start := t.cfl.start } ∧
      (s.cfl.start ≠ .rebuild → t.cfl.start = s.cfl.start) := by
  exact onEvent_same s t _ _ (by grind [State.outside, planExpires_outside]) h

theorem execAnswer_outside (s t : State) (h : execAnswer s = .next t) :
    t.outside = { s.outside with start := t.cfl.start, rx := t.lbc.rx } ∧
      (s.cfl.start ≠ .rebuild → t.cfl.start = s.cfl.start) := by
  exact onKind_outside s t _ _ (by intro x u; rfl) h

theorem execRestartNode_outside (s t : State) (h : execRestartNode s = .next t) :
    t.outside = { s.outside with start := t.cfl.start, rx := t.lbc.rx, dck := t.dck, clock := t.tiu.clock } ∧
      (s.cfl.start ≠ .rebuild → t.cfl.start = s.cfl.start) := by
  exact onDirectiveKind_outside s t _ h

theorem execPoint_outside (s t : State) (h : execPoint s = .next t) :
    t.outside = { s.outside with start := t.cfl.start, reports := t.slc.reports, dck := t.dck, clock := t.tiu.clock, image := t.slc.image } ∧
      (s.cfl.start ≠ .rebuild → t.cfl.start = s.cfl.start) := by
  refine onReport_moves s t _ _ ?_ h
  intro r u
  dsimp only
  split
  · rename_i n v
    have hp : (u.setPoint n v).outside = { u.outside with image := (u.setPoint n v).slc.image } := rfl
    unfold State.takePoint
    dsimp only
    (repeat' split) <;> grind [State.outside, breakerReport_outside, pointReport_outside]
  · rfl

theorem execSweepBegin_outside (s t : State) (h : execSweepBegin s = .next t) :
    t.outside = { s.outside with start := t.cfl.start, reports := t.slc.reports } ∧
      (s.cfl.start ≠ .rebuild → t.cfl.start = s.cfl.start) := by
  exact onReport_outside s t _ _ (by intro r u; grind [State.outside, beginSweep_outside]) h

theorem execSweepEnd_outside (s t : State) (h : execSweepEnd s = .next t) :
    t.outside = { s.outside with start := t.cfl.start, reports := t.slc.reports } ∧
      (s.cfl.start ≠ .rebuild → t.cfl.start = s.cfl.start) := by
  exact onReport_outside s t _ _ (by intro r u; grind [State.outside, endSweep_outside]) h

theorem execSweepWaitEnd_outside (s t : State) (h : execSweepWaitEnd s = .next t) :
    t.outside = { s.outside with start := t.cfl.start } ∧
      (s.cfl.start ≠ .rebuild → t.cfl.start = s.cfl.start) := by
  exact onEvent_same s t _ _ (by grind [State.outside, sweepOverdue_outside]) h

theorem execCommandFrameSent_outside (s t : State) (h : execCommandFrameSent s = .next t) :
    t.outside = { s.outside with start := t.cfl.start } ∧
      (s.cfl.start ≠ .rebuild → t.cfl.start = s.cfl.start) := by
  exact onEvent_same s t _ _ (by grind [State.outside, commandSent_outside]) h

theorem execWorkstationDirective_outside (s t : State) (h : execWorkstationDirective s = .next t) :
    t.outside = { s.outside with start := t.cfl.start, reports := t.slc.reports, dck := t.dck, clock := t.tiu.clock, image := t.slc.image } ∧
      (s.cfl.start ≠ .rebuild → t.cfl.start = s.cfl.start) := by
  exact onReport_moves s t _ _ (fun r u => workstation_moves u r) h

theorem execPlanClear_outside (s t : State) (h : execPlanClear s = .next t) :
    t.outside = { s.outside with start := t.cfl.start, reports := t.slc.reports, dck := t.dck, clock := t.tiu.clock, image := t.slc.image } ∧
      (s.cfl.start ≠ .rebuild → t.cfl.start = s.cfl.start) := by
  exact onReport_moves s t _ _ (fun r u => workstation_moves u r) h

theorem execPlanEntry_outside (s t : State) (h : execPlanEntry s = .next t) :
    t.outside = { s.outside with start := t.cfl.start, reports := t.slc.reports, dck := t.dck, clock := t.tiu.clock, image := t.slc.image } ∧
      (s.cfl.start ≠ .rebuild → t.cfl.start = s.cfl.start) := by
  exact onReport_moves s t _ _ (fun r u => workstation_moves u r) h

theorem execPlanSend_outside (s t : State) (h : execPlanSend s = .next t) :
    t.outside = { s.outside with start := t.cfl.start, reports := t.slc.reports, dck := t.dck, clock := t.tiu.clock, image := t.slc.image } ∧
      (s.cfl.start ≠ .rebuild → t.cfl.start = s.cfl.start) := by
  exact onReport_moves s t _ _ (fun r u => workstation_moves u r) h

theorem execUnknownDirective_outside (s t : State) (h : execUnknownDirective s = .next t) :
    t.outside = { s.outside with start := t.cfl.start, rx := t.lbc.rx, dck := t.dck, clock := t.tiu.clock } ∧
      (s.cfl.start ≠ .rebuild → t.cfl.start = s.cfl.start) := by
  exact onDirectiveKind_outside s t _ h

theorem execFieldQuery_outside (s t : State) (h : execFieldQuery s = .next t) :
    t.outside = { s.outside with start := t.cfl.start, rx := t.lbc.rx, dck := t.dck, clock := t.tiu.clock } ∧
      (s.cfl.start ≠ .rebuild → t.cfl.start = s.cfl.start) := by
  exact onDirectiveKind_outside s t _ h

theorem execDwellMark_outside (platform : Nat) (s t : State) (h : execDwellMark platform s = .next t) :
    t.outside = { s.outside with start := t.cfl.start } ∧
      (s.cfl.start ≠ .rebuild → t.cfl.start = s.cfl.start) := by
  exact onPlatform_outside s t _ _ _ (by intro c u; grind [State.outside, takeMark_outside, takeTheMark_outside]) h

theorem execDwellExpiry_outside (platform : Nat) (s t : State) (h : execDwellExpiry platform s = .next t) :
    t.outside = { s.outside with start := t.cfl.start } ∧
      (s.cfl.start ≠ .rebuild → t.cfl.start = s.cfl.start) := by
  exact onPlatform_outside s t _ _ _
    (by intro c u; grind [State.outside, takeDwellExpiry_outside, targetExpires_outside]) h

theorem execAuthWaitExpiry_outside (platform : Nat) (s t : State) (h : execAuthWaitExpiry platform s = .next t) :
    t.outside = { s.outside with start := t.cfl.start } ∧
      (s.cfl.start ≠ .rebuild → t.cfl.start = s.cfl.start) := by
  exact onPlatform_outside s t _ _ _
    (by intro c u; grind [State.outside, authExpires_outside, takeDwellExpiry_outside]) h

theorem execCueWaitExpiry_outside (platform : Nat) (s t : State) (h : execCueWaitExpiry platform s = .next t) :
    t.outside = { s.outside with start := t.cfl.start } ∧
      (s.cfl.start ≠ .rebuild → t.cfl.start = s.cfl.start) := by
  exact onPlatform_outside s t _ _ _
    (by intro c u; grind [State.outside, cueWaitExpires_outside, takeDwellExpiry_outside]) h

theorem execPowerWaitExpiry_outside (platform : Nat) (s t : State) (h : execPowerWaitExpiry platform s = .next t) :
    t.outside = { s.outside with start := t.cfl.start } ∧
      (s.cfl.start ≠ .rebuild → t.cfl.start = s.cfl.start) := by
  exact onPlatform_outside s t _ _ _ (by intro c u; grind [State.outside, powerWaitExpires_outside]) h

theorem execHoldTrain_outside (s t : State) (h : execHoldTrain s = .next t) :
    t.outside = { s.outside with start := t.cfl.start, rx := t.lbc.rx, dck := t.dck, clock := t.tiu.clock } ∧
      (s.cfl.start ≠ .rebuild → t.cfl.start = s.cfl.start) := by
  exact onDirectiveKind_outside s t _ h

theorem execReleaseTrain_outside (s t : State) (h : execReleaseTrain s = .next t) :
    t.outside = { s.outside with start := t.cfl.start, rx := t.lbc.rx, dck := t.dck, clock := t.tiu.clock } ∧
      (s.cfl.start ≠ .rebuild → t.cfl.start = s.cfl.start) := by
  exact onDirectiveKind_outside s t _ h

theorem execWithdrawRun_outside (s t : State) (h : execWithdrawRun s = .next t) :
    t.outside = { s.outside with start := t.cfl.start, rx := t.lbc.rx, dck := t.dck, clock := t.tiu.clock } ∧
      (s.cfl.start ≠ .rebuild → t.cfl.start = s.cfl.start) := by
  exact onDirectiveKind_outside s t _ h

theorem execInsertRun_outside (s t : State) (h : execInsertRun s = .next t) :
    t.outside = { s.outside with start := t.cfl.start, rx := t.lbc.rx, dck := t.dck, clock := t.tiu.clock } ∧
      (s.cfl.start ≠ .rebuild → t.cfl.start = s.cfl.start) := by
  exact onDirectiveKind_outside s t _ h

theorem execSetMode_outside (s t : State) (h : execSetMode s = .next t) :
    t.outside = { s.outside with start := t.cfl.start, rx := t.lbc.rx, dck := t.dck, clock := t.tiu.clock } ∧
      (s.cfl.start ≠ .rebuild → t.cfl.start = s.cfl.start) := by
  exact onDirectiveKind_outside s t _ h

theorem execAnnounce_outside (s t : State) (h : execAnnounce s = .next t) :
    t.outside = { s.outside with start := t.cfl.start, rx := t.lbc.rx, dck := t.dck, clock := t.tiu.clock } ∧
      (s.cfl.start ≠ .rebuild → t.cfl.start = s.cfl.start) := by
  exact onDirectiveKind_outside s t _ h

theorem execCancelAnnounce_outside (s t : State) (h : execCancelAnnounce s = .next t) :
    t.outside = { s.outside with start := t.cfl.start, rx := t.lbc.rx, dck := t.dck, clock := t.tiu.clock } ∧
      (s.cfl.start ≠ .rebuild → t.cfl.start = s.cfl.start) := by
  exact onDirectiveKind_outside s t _ h

theorem execWakeTimerExpiry_outside (s t : State) (h : execWakeTimerExpiry s = .next t) :
    t.outside = { s.outside with start := t.cfl.start } ∧
      (s.cfl.start ≠ .rebuild → t.cfl.start = s.cfl.start) := by
  exact onEvent_same s t _ _ (by grind [State.outside, wakeExpired_outside]) h

theorem execPlayerTimerExpiry_outside (s t : State) (h : execPlayerTimerExpiry s = .next t) :
    t.outside = { s.outside with start := t.cfl.start } ∧
      (s.cfl.start ≠ .rebuild → t.cfl.start = s.cfl.start) := by
  exact onEvent_same s t _ _ (by grind [State.outside, playerExpired_outside]) h

theorem execDayStart_outside (s t : State) (h : execDayStart s = .next t) :
    t.outside = { s.outside with start := t.cfl.start, rx := t.lbc.rx, dck := t.dck, clock := t.tiu.clock } ∧
      (s.cfl.start ≠ .rebuild → t.cfl.start = s.cfl.start) := by
  exact onDirectiveKind_outside s t _ h

/-! ## Commands whose effect moves more -/

theorem execGateCompletion_outside (record edges : Nat) (s t : State)
    (h : execGateCompletion record edges s = .next t) :
    t.outside = { s.outside with start := t.cfl.start, refMoment := t.refMoment } ∧
      (s.cfl.start ≠ .rebuild → t.cfl.start = s.cfl.start) := by
  have h3 : (s.gateEnds record edges).outside = { s.outside with refMoment := (s.gateEnds record edges).refMoment } :=
      by
    unfold State.gateEnds
    (repeat' split) <;> grind [State.outside, updSec_outside, completeGate_outside]
  rcases onEvent_outside s t _ _ h with h | ⟨_, h1, h2⟩
  · subst h; exact ⟨rfl, fun _ => rfl⟩
  · grind [State.outside]

theorem execTrackInputChange_outside (input cycle : Nat) (high : Bool) (s t : State)
    (h : execTrackInputChange input cycle high s = .next t) :
    t.outside = { s.outside with refMoment := t.refMoment, tracks := t.slc.tracks, trk := t.pins.trk } := by
  cases h
  unfold State.atCycle
  split
  · split
    · dsimp only
      unfold State.pinChange State.rawChange
      (repeat' split) <;> first | rfl | (dsimp only; (repeat' split) <;> rfl)
    · rfl
  · rfl

theorem execFirstLevel_outside (input cycle : Nat) (s t : State) (h : execFirstLevel input cycle s = .next t) :
    t.outside = { s.outside with start := t.cfl.start, refMoment := t.refMoment, tracks := t.slc.tracks } ∧
      (s.cfl.start ≠ .rebuild → t.cfl.start = s.cfl.start) := by
  unfold execFirstLevel at h
  split at h
  · rename_i x _
    have h3 := accept_outside s input x
    have h4 : ∀ p, ((s.accept input x).firstBerthLevel p x.2.active x.2.stamp).outside = (s.accept input x).outside :=
      fun p => firstBerthLevel_outside _ _ _ _
    rcases onEvent_outside s t _ _ h with h | ⟨_, h1, h2⟩
    · subst h; exact ⟨rfl, fun _ => rfl⟩
    · dsimp only at h1 h2
      split at h1 <;> grind [State.outside]
  · rcases onEvent_outside s t _ _ h with h | ⟨h0, _⟩
    · subst h; exact ⟨rfl, fun _ => rfl⟩
    · exact absurd h0 (by simp)

/-- What a telegram from the line moves: the receive queue alone. -/
theorem receive_outside (s : State) (m : Nat) (bs : Bytes) :
    (s.receive m bs).outside = { s.outside with rx := (s.receive m bs).lbc.rx } := by
  unfold State.receive State.joinRx
  dsimp only
  (repeat' split) <;> rfl

theorem execTelegramReceived_outside (cycle : Nat) (bytes : Bytes) (s t : State)
    (h : execTelegramReceived cycle bytes s = .next t) :
    t.outside = { s.outside with start := t.cfl.start, rx := t.lbc.rx, refMoment := t.refMoment } ∧
      (s.cfl.start ≠ .rebuild → t.cfl.start = s.cfl.start) := by
  have h3 : (s.atCycle cycle (fun _ => isWhole bytes) (fun m s => s.receive m bytes)).outside = { s.outside with
      rx := (s.atCycle cycle (fun _ => isWhole bytes) (fun m s => s.receive m bytes)).lbc.rx
      refMoment := (s.atCycle cycle (fun _ => isWhole bytes) (fun m s => s.receive m bytes)).refMoment } := by
    unfold State.atCycle
    split
    · split
      · rename_i m _ _
        have := receive_outside { s with refMoment := m } m bytes
        grind [State.outside]
      · rfl
    · rfl
  unfold execTelegramReceived onCycle at h
  rcases onEvent_outside s t _ _ h with h | ⟨_, h1, h2⟩
  · subst h; exact ⟨rfl, fun _ => rfl⟩
  · grind [State.outside]

theorem execRebuildTimerExpiry_outside (s t : State) (h : execRebuildTimerExpiry s = .next t) :
    t.outside = { s.outside with start := t.cfl.start } ∧
      (s.cfl.start ≠ .rebuild → t.cfl.start = s.cfl.start) := by
  have h3 := rebuildExpires_outside s
  rcases onEvent_outside s t _ _ h with h | ⟨h0, h1, _⟩
  · subst h; exact ⟨rfl, fun _ => rfl⟩
  · refine ⟨by grind [State.outside], fun hn => ?_⟩
    simp at h0
    exact absurd h0.1 hn

theorem restoreLink_outside' (s : State) : s.restoreLink.outside = s.outside := by
  grind [State.restoreLink, State.outside, post_outside, requestSweep_outside]

theorem frame_outside (s : State) (f : InFrame) :
    (s.frame f).outside = { s.outside with reports := (s.frame f).slc.reports } := by
  have h1 := restoreLink_outside' { s with slc := { s.slc with lastValid := s.runTime } }
  unfold State.frame State.joinReports
  dsimp only
  (repeat' split) <;> grind [State.outside, requestSweep_outside]

theorem execValidFrame_outside (bytes : Bytes) (s t : State) (h : execValidFrame bytes s = .next t) :
    t.outside = { s.outside with start := t.cfl.start, reports := t.slc.reports } ∧
      (s.cfl.start ≠ .rebuild → t.cfl.start = s.cfl.start) := by
  unfold execValidFrame at h
  split at h
  · rename_i f _
    have h3 := frame_outside s f
    rcases onEvent_outside s t _ _ h with h | ⟨_, h1, h2⟩
    · subst h; exact ⟨rfl, fun _ => rfl⟩
    · grind [State.outside]
  · rcases onEvent_outside s t _ _ h with h | ⟨h0, _⟩
    · subst h; exact ⟨rfl, fun _ => rfl⟩
    · exact absurd h0 (by simp)

theorem loseLink_outside (s : State) : s.loseLink.outside = { s.outside with image := s.loseLink.slc.image } := by
  grind [State.loseLink, State.outside, post_outside, raise_outside]

theorem execStationLinkSilence_outside (s t : State) (h : execStationLinkSilence s = .next t) :
    t.outside = { s.outside with start := t.cfl.start, image := t.slc.image } ∧
      (s.cfl.start ≠ .rebuild → t.cfl.start = s.cfl.start) := by
  have h3 := loseLink_outside s
  rcases onEvent_outside s t _ _ h with h | ⟨_, h1, h2⟩
  · subst h; exact ⟨rfl, fun _ => rfl⟩
  · grind [State.outside]

theorem execStationLinkBreak_outside (s t : State) (h : execStationLinkBreak s = .next t) :
    t.outside = { s.outside with start := t.cfl.start, image := t.slc.image } ∧
      (s.cfl.start ≠ .rebuild → t.cfl.start = s.cfl.start) := by
  have h3 := loseLink_outside s
  rcases onEvent_outside s t _ _ h with h | ⟨_, h1, h2⟩
  · subst h; exact ⟨rfl, fun _ => rfl⟩
  · grind [State.outside]

theorem readyRises_outside (s : State) : s.readyRises.outside = { s.outside with ready := true } := by
  grind [State.readyRises, State.outside, post_outside, pump_outside, phraseDone_outside]

theorem execReadyRise_outside (s t : State) (h : execReadyRise s = .next t) :
    t.outside = { s.outside with start := t.cfl.start, ready := true } ∧
      (s.cfl.start ≠ .rebuild → t.cfl.start = s.cfl.start) := by
  have h3 := readyRises_outside s
  have h1 := finish_outside s.readyRises
  have h2 := finish_stays s.readyRises
  cases h
  split <;> grind [State.outside]

theorem readyFalls_outside (s : State) : s.readyFalls.outside = { s.outside with ready := false } := by
  grind [State.readyFalls, State.outside, reloadPlayer_outside]

theorem execReadyFall_outside (s t : State) (h : execReadyFall s = .next t) :
    t.outside = { s.outside with start := t.cfl.start, ready := false } ∧
      (s.cfl.start ≠ .rebuild → t.cfl.start = s.cfl.start) := by
  have h3 := readyFalls_outside s
  have h1 := finish_outside s.readyFalls
  have h2 := finish_stays s.readyFalls
  cases h
  split <;> grind [State.outside]

theorem execTick_outside (s t : State) (h : execTick s = .next t) :
    t.outside = { s.outside with clock := t.tiu.clock, runTime := t.runTime, refMoment := t.refMoment } := by
  cases h
  split <;> rfl

theorem trimClock_outside (s : State) : s.trimClock.outside = { s.outside with clock := s.trimClock.tiu.clock } := by
  unfold State.trimClock
  dsimp only
  (repeat' split) <;> rfl

theorem execClockTrim_outside (s t : State) (h : execClockTrim s = .next t) :
    t.outside = { s.outside with start := t.cfl.start, clock := t.tiu.clock } ∧
      (s.cfl.start ≠ .rebuild → t.cfl.start = s.cfl.start) := by
  have h3 := trimClock_outside s
  rcases onEvent_outside s t _ _ h with h | ⟨_, h1, h2⟩
  · subst h; exact ⟨rfl, fun _ => rfl⟩
  · grind [State.outside]

theorem statusPeriod_stays (s : State) (h : s.cfl.start ≠ .rebuild) : s.statusPeriod.cfl.start = s.cfl.start := by
  have h1 : (s.updChan 4 (fun c => { c with expiryDue := false })).outside = s.outside := rfl
  have h2 : ∀ u : State, u.cfl.start ≠ .rebuild → u.rebuildPeriod = u := by
    intro u hu
    unfold State.rebuildPeriod
    split <;> simp_all
  have h3 := formStatus_outside (s.updChan 4 (fun c => { c with expiryDue := false }))
  have h4 := showLines_outside (s.updChan 4 (fun c => { c with expiryDue := false })).formStatus
  unfold State.statusPeriod
  dsimp only
  rw [h2 _ (by grind [State.outside])]
  split <;> grind [State.outside]

theorem execStatusPeriod_outside (s t : State) (h : execStatusPeriod s = .next t) :
    t.outside = { s.outside with start := t.cfl.start } ∧
      (s.cfl.start ≠ .rebuild → t.cfl.start = s.cfl.start) := by
  have h3 := statusPeriod_outside s
  have h4 := statusPeriod_stays s
  rcases onEvent_outside s t _ _ h with h | ⟨_, h1, h2⟩
  · subst h; exact ⟨rfl, fun _ => rfl⟩
  · grind [State.outside]

end Sys2Proof.Machine
end

