-- ==== Sys2Proof/Laws/Directives.lean ====
section
/-! SUPPORT. Directives: what passes every check of the Directive Checker is carried out by its owner, and the result is
answered. -/

namespace Sys2Proof.Machine

open Sys2Proof

/-- The clamp keeps a directive's code. -/
theorem clampDirective_code (level : Nat) (d : Directive) : (clampDirective level d).code = d.code := by
  cases d <;> rfl

/-- A directive that passes every check is clamped to its sender's level and carried out by its owner, and the result is
answered (R189). -/
theorem onDirectiveKind_clamped (s : State) (want : Directive → Bool) (sender serial i : Nat) (d e : Directive)
    (ts : List Received) (h : s.Ordered sender serial i d ts) (hw : want d = true) (hu : d.isUnknown = false)
    (he : ∀ c, s.cfg.consoles[i]? = some c → clampDirective c.level d = e) (hq : e ≠ .fieldQuery)
    (hr : e ≠ .restartNode) :
    onDirectiveKind s want = .next (finish
      ((((s.withRx ts).carryOut sender e).1).answered i sender serial d ((s.withRx ts).carryOut sender e).2)) := by
  obtain ⟨hready, hrole, hrun, hhead, hidx, hstore, ⟨c, hc, hlev⟩, hzero⟩ := h
  have hclamp := he c hc
  have hcode : e.code = d.code := hclamp ▸ clampDirective_code c.level d
  unfold onDirectiveKind
  rw [onKind_station s _ _ _ ts hready.1 hrole hhead (by simpa [isDirective] using hw)]
  have key : (s.withRx ts).takeDirective sender serial d =
      (((s.withRx ts).carryOut sender e).1).answered i sender serial d ((s.withRx ts).carryOut sender e).2 := by
    have h1 : (s.withRx ts).cfl.start = .running := hrun
    have h2 : (s.withRx ts).consoleIndex sender = some i := hidx
    have h3 : (s.withRx ts).storedAnswer i serial = none := hstore
    have h4 : (s.withRx ts).cfg.consoles[i]? = some c := hc
    have h5 : ¬c.level < d.level := by omega
    have hp : ∀ v : State, v.answerPoints e = none := by
      intro v
      cases e <;> first | rfl | exact absurd rfl hq
    have ho : ∀ v : State, v.orderRestart e = (v, .none) := by
      intro v
      cases e <;> first | rfl | exact absurd rfl hr
    simp only [State.takeDirective, h1, h2, h3, h4, State.checkDirective, hu, h5, hzero, hclamp, State.ownerStep, hp,
        ho,
      hcode, State.answered, State.storeAnswer, if_false, Bool.false_eq_true]
  show Host.Outcome.next (finish ((s.withRx ts).takeDirective sender serial d)) = _
  rw [key]

/-- A directive that the clamp leaves as it is. -/
theorem onDirectiveKind_ordered (s : State) (want : Directive → Bool) (sender serial i : Nat) (d : Directive)
    (ts : List Received) (h : s.Ordered sender serial i d ts) (hw : want d = true) (hu : d.isUnknown = false)
    (hq : d ≠ .fieldQuery) (hr : d ≠ .restartNode) (hc : ∀ level, clampDirective level d = d := by exact fun _ => rfl) :
    onDirectiveKind s want = .next (finish
      ((((s.withRx ts).carryOut sender d).1).answered i sender serial d ((s.withRx ts).carryOut sender d).2)) :=
  onDirectiveKind_clamped s want sender serial i d d ts h hw hu (fun c _ => hc c.level) hq hr

theorem execAckIncident_ordered (s : State) (sender serial i : Nat) (ts : List Received) (x : IncId)
    (h : s.Ordered sender serial i (.ackIncident x) ts) :
    execAckIncident s = .next (finish ((((s.withRx ts).carryOut sender (.ackIncident x)).1).answered i sender serial (.ackIncident x)
      ((s.withRx ts).carryOut sender (.ackIncident x)).2)) :=
  onDirectiveKind_ordered s _ sender serial i _ ts h rfl rfl (by simp) (by simp)

theorem execClearIncident_ordered (s : State) (sender serial i : Nat) (ts : List Received) (x : IncId)
    (h : s.Ordered sender serial i (.clearIncident x) ts) :
    execClearIncident s = .next (finish ((((s.withRx ts).carryOut sender (.clearIncident x)).1).answered i sender serial (.clearIncident x)
      ((s.withRx ts).carryOut sender (.clearIncident x)).2)) :=
  onDirectiveKind_ordered s _ sender serial i _ ts h rfl rfl (by simp) (by simp)

/-- DECLARE_INCIDENT is carried out clamped to its sender's level: severity to its ceiling, CUT from level 3 up. -/
theorem execDeclareIncident_ordered (s : State) (sender serial i : Nat) (ts : List Received) (x : DeclareArgs)
    (c : ConsoleCfg) (h : s.Ordered sender serial i (.declareIncident x) ts) (hc : s.cfg.consoles[i]? = some c) :
    let e : Directive := clampDirective c.level (.declareIncident x)
    execDeclareIncident s = .next (finish ((((s.withRx ts).carryOut sender e).1).answered i sender serial
      (.declareIncident x) ((s.withRx ts).carryOut sender e).2)) :=
  onDirectiveKind_clamped s _ sender serial i _ _ ts h rfl rfl (fun d hd => by cases hc.symm.trans hd; rfl) (by simp [clampDirective])
    (by simp [clampDirective])

theorem execClearOverflow_ordered (s : State) (sender serial i : Nat) (ts : List Received)
    (h : s.Ordered sender serial i (.clearOverflow) ts) :
    execClearOverflow s = .next (finish ((((s.withRx ts).carryOut sender (.clearOverflow)).1).answered i sender serial (.clearOverflow)
      ((s.withRx ts).carryOut sender (.clearOverflow)).2)) :=
  onDirectiveKind_ordered s _ sender serial i _ ts h rfl rfl (by simp) (by simp)

/-- ANNOUNCE is carried out clamped to its sender's level: priority to its ceiling. -/
theorem execAnnounce_ordered (s : State) (sender serial i : Nat) (ts : List Received) (x : AnnounceArgs) (c : ConsoleCfg)
    (h : s.Ordered sender serial i (.announce x) ts) (hc : s.cfg.consoles[i]? = some c) :
    let e : Directive := clampDirective c.level (.announce x)
    execAnnounce s = .next (finish ((((s.withRx ts).carryOut sender e).1).answered i sender serial (.announce x)
      ((s.withRx ts).carryOut sender e).2)) :=
  onDirectiveKind_clamped s _ sender serial i _ _ ts h rfl rfl (fun d hd => by cases hc.symm.trans hd; rfl) (by simp [clampDirective])
    (by simp [clampDirective])

theorem execCancelAnnounce_ordered (s : State) (sender serial i : Nat) (ts : List Received) (t : Nat) (l : List Nat)
    (z : BitVec 5)
    (h : s.Ordered sender serial i (.cancelAnnounce t l z) ts) :
    execCancelAnnounce s = .next (finish ((((s.withRx ts).carryOut sender (.cancelAnnounce t l z)).1).answered i sender serial (.cancelAnnounce t l z)
      ((s.withRx ts).carryOut sender (.cancelAnnounce t l z)).2)) :=
  onDirectiveKind_ordered s _ sender serial i _ ts h rfl rfl (by simp) (by simp)

theorem execIsolateSection_ordered (s : State) (sender serial i : Nat) (ts : List Received) (x : Nat)
    (h : s.Ordered sender serial i (.isolateSection x) ts) :
    execIsolateSection s = .next (finish ((((s.withRx ts).carryOut sender (.isolateSection x)).1).answered i sender serial (.isolateSection x)
      ((s.withRx ts).carryOut sender (.isolateSection x)).2)) :=
  onDirectiveKind_ordered s _ sender serial i _ ts h rfl rfl (by simp) (by simp)

theorem execRestoreSection_ordered (s : State) (sender serial i : Nat) (ts : List Received) (x : Nat)
    (h : s.Ordered sender serial i (.restoreSection x) ts) :
    execRestoreSection s = .next (finish ((((s.withRx ts).carryOut sender (.restoreSection x)).1).answered i sender serial (.restoreSection x)
      ((s.withRx ts).carryOut sender (.restoreSection x)).2)) :=
  onDirectiveKind_ordered s _ sender serial i _ ts h rfl rfl (by simp) (by simp)

theorem execHoldTrain_ordered (s : State) (sender serial i : Nat) (ts : List Received) (r : Nat) (p : Option Nat)
    (h : s.Ordered sender serial i (.holdTrain r p) ts) :
    execHoldTrain s = .next (finish ((((s.withRx ts).carryOut sender (.holdTrain r p)).1).answered i sender serial (.holdTrain r p)
      ((s.withRx ts).carryOut sender (.holdTrain r p)).2)) :=
  onDirectiveKind_ordered s _ sender serial i _ ts h rfl rfl (by simp) (by simp)

theorem execReleaseTrain_ordered (s : State) (sender serial i : Nat) (ts : List Received) (r : Nat) (p : Option Nat)
    (h : s.Ordered sender serial i (.releaseTrain r p) ts) :
    execReleaseTrain s = .next (finish ((((s.withRx ts).carryOut sender (.releaseTrain r p)).1).answered i sender serial (.releaseTrain r p)
      ((s.withRx ts).carryOut sender (.releaseTrain r p)).2)) :=
  onDirectiveKind_ordered s _ sender serial i _ ts h rfl rfl (by simp) (by simp)

theorem execWithdrawRun_ordered (s : State) (sender serial i : Nat) (ts : List Received) (r : Nat) (p : Option Nat)
    (h : s.Ordered sender serial i (.withdrawRun r p) ts) :
    execWithdrawRun s = .next (finish ((((s.withRx ts).carryOut sender (.withdrawRun r p)).1).answered i sender serial (.withdrawRun r p)
      ((s.withRx ts).carryOut sender (.withdrawRun r p)).2)) :=
  onDirectiveKind_ordered s _ sender serial i _ ts h rfl rfl (by simp) (by simp)

theorem execInsertRun_ordered (s : State) (sender serial i : Nat) (ts : List Received) (x : InsertArgs)
    (h : s.Ordered sender serial i (.insertRun x) ts) :
    execInsertRun s = .next (finish ((((s.withRx ts).carryOut sender (.insertRun x)).1).answered i sender serial (.insertRun x)
      ((s.withRx ts).carryOut sender (.insertRun x)).2)) :=
  onDirectiveKind_ordered s _ sender serial i _ ts h rfl rfl (by simp) (by simp)

theorem execSetMode_ordered (s : State) (sender serial i : Nat) (ts : List Received) (m : Nat) (p : Option Nat)
    (h : s.Ordered sender serial i (.setMode m p) ts) :
    execSetMode s = .next (finish ((((s.withRx ts).carryOut sender (.setMode m p)).1).answered i sender serial (.setMode m p)
      ((s.withRx ts).carryOut sender (.setMode m p)).2)) :=
  onDirectiveKind_ordered s _ sender serial i _ ts h rfl rfl (by simp) (by simp)

theorem execDayStart_ordered (s : State) (sender serial i : Nat) (ts : List Received) (t : Nat)
    (h : s.Ordered sender serial i (.dayStart t) ts) :
    execDayStart s = .next (finish ((((s.withRx ts).carryOut sender (.dayStart t)).1).answered i sender serial (.dayStart t)
      ((s.withRx ts).carryOut sender (.dayStart t)).2)) :=
  onDirectiveKind_ordered s _ sender serial i _ ts h rfl rfl (by simp) (by simp)

end Sys2Proof.Machine
end

