-- ==== Sys2Proof/Laws/Formats.lean ====
section
/-! SUPPORT. What a layout's writer puts down its reader reads back: numbers, packed fields, checksums. -/

namespace Sys2Proof.Machine

open Sys2Proof

theorem natOf_append_one (a : Bytes) (x : Byte) : natOf (a ++ [x]) = natOf a * 256 + x.toNat := by
  simp [natOf]

theorem bytesOf_length (w n : Nat) : (bytesOf w n).length = w := by
  induction w generalizing n with
  | zero => rfl
  | succ w ih => simp [bytesOf, ih]

theorem byteOf_toNat (n : Nat) : (byteOf n).toNat = n % 256 := by simp [byteOf]

/-- The number that w bytes hold is the number written, modulo 256 to the w. -/
theorem natOf_bytesOf (w n : Nat) : natOf (bytesOf w n) = n % 256 ^ w := by
  induction w generalizing n with
  | zero => simp [bytesOf, natOf, Nat.mod_one]
  | succ w ih =>
    rw [bytesOf, natOf_append_one, ih, byteOf_toNat, Nat.pow_succ, Nat.mul_comm (256 ^ w) 256, Nat.mod_mul]
    omega

theorem takeBytes_append (a b : Bytes) : takeBytes a.length (a ++ b) = some (a, b) := by simp [takeBytes]

theorem readNat_bytesOf (w n : Nat) (b : Bytes) : readNat w (bytesOf w n ++ b) = some (n % 256 ^ w, b) := by
  have h := takeBytes_append (bytesOf w n) b
  rw [bytesOf_length] at h
  show (takeBytes w (bytesOf w n ++ b)).bind _ = _
  rw [h]
  show some (natOf (bytesOf w n), b) = _
  rw [natOf_bytesOf]

/-- One byte is read back. -/
theorem read1_byteOf (n : Nat) (b : Bytes) : read1 (byteOf n :: b) = some (n % 256, b) := readNat_bytesOf 1 n b

theorem read2_bytesOf (n : Nat) (b : Bytes) : read2 (bytesOf 2 n ++ b) = some (n % 65536, b) := readNat_bytesOf 2 n b

theorem readIn_bytesOf (w lo hi n : Nat) (b : Bytes) (h : n < 256 ^ w) (h1 : lo ≤ n) (h2 : n ≤ hi) :
    readIn w lo hi (bytesOf w n ++ b) = some (n, b) := by
  show (readNat w (bytesOf w n ++ b)).bind _ = _
  rw [readNat_bytesOf, Nat.mod_eq_of_lt h]
  show (need (decide (lo ≤ n ∧ n ≤ hi)) b).bind _ = _
  simp [need, h1, h2]
  rfl

theorem readIn_byteOf (lo hi n : Nat) (b : Bytes) (h : n < 256) (h1 : lo ≤ n) (h2 : n ≤ hi) :
    readIn 1 lo hi (byteOf n :: b) = some (n, b) := readIn_bytesOf 1 lo hi n b h h1 h2

/-- Decimal digits are read back. -/
theorem bcdTo_bcdOf (k n : Nat) : bcdTo k (bcdOf k n) = some (n % 10 ^ k) := by
  induction k generalizing n with
  | zero => simp [bcdTo, Nat.mod_one]
  | succ k ih =>
    have h1 : (bcdOf k (n / 10) * 16 + n % 10) % 16 = n % 10 := by omega
    have h2 : (bcdOf k (n / 10) * 16 + n % 10) / 16 = bcdOf k (n / 10) := by omega
    simp only [bcdTo, bcdOf, h1, h2, ih]
    rw [if_neg (by omega)]
    simp only [Option.map_some, Option.some.injEq]
    rw [Nat.pow_succ, Nat.mul_comm (10 ^ k) 10, Nat.mod_mul]
    omega

theorem bcdOf_lt (k n : Nat) : bcdOf k n < 16 ^ k := by
  induction k generalizing n with
  | zero => simp [bcdOf]
  | succ k ih =>
    have := ih (n / 10)
    simp only [bcdOf, Nat.pow_succ]
    omega

/-- A packed field of an odd number of digits is read back. -/
theorem unpackDigits_packDigits (j n : Nat) (m : Bool) (h : n < 10 ^ (2 * j + 1)) :
    unpackDigits (2 * j + 1) (packDigits (2 * j + 1) n m) = some (m, n) := by
  have hw : (2 * j + 1 + 1) / 2 = j + 1 := by omega
  have hlt := bcdOf_lt (2 * j + 1) n
  have hpow : (256 : Nat) ^ (j + 1) = 16 ^ (2 * j + 1) * 16 := by
    rw [show (256 : Nat) = 16 ^ 2 by rfl, ← Nat.pow_mul, ← Nat.pow_succ]
    congr 1
  have hfit : (bcdOf (2 * j + 1) n * 16 + if m = true then signMinus else signPlus) < 256 ^ (j + 1) := by
    rw [hpow]
    generalize 16 ^ (2 * j + 1) = z at hlt
    cases m <;> simp only [signMinus, signPlus, if_true, if_false, Bool.false_eq_true] <;> omega
  unfold unpackDigits packDigits
  rw [hw, natOf_bytesOf, Nat.mod_eq_of_lt hfit]
  have h1 : (bcdOf (2 * j + 1) n * 16 + if m = true then signMinus else signPlus) % 16 =
      if m = true then signMinus else signPlus := by
    cases m <;> simp [signMinus, signPlus] <;> omega
  have h2 : (bcdOf (2 * j + 1) n * 16 + if m = true then signMinus else signPlus) / 16 = bcdOf (2 * j + 1) n := by
    cases m <;> simp [signMinus, signPlus] <;> omega
  rw [h1, h2, bcdTo_bcdOf, Nat.mod_eq_of_lt h]
  cases m <;> rfl

theorem packDigits_length (k n : Nat) (m : Bool) : (packDigits k n m).length = (k + 1) / 2 := bytesOf_length _ _

theorem takeBytes_of_length (a b : Bytes) (w : Nat) (h : a.length = w) : takeBytes w (a ++ b) = some (a, b) := by
  subst h
  exact takeBytes_append a b

/-- A run number is read back. -/
theorem readRun_packRun (n : Nat) (b : Bytes) (h : n ≤ 999) : readRun (packRun n ++ b) = some (n, b) := by
  have ht : takeBytes 2 (packRun n ++ b) = some (packRun n, b) :=
      takeBytes_of_length _ _ 2 (packDigits_length 3 n false)
  have hu : unpackDigits 3 (packRun n) = some (false, n) := unpackDigits_packDigits 1 n false (by omega)
  simp [readRun, bind, StateT.bind, ht, hu, pure, StateT.pure]

/-- A service time is read back. -/
theorem readTime_packTime (n : Nat) (b : Bytes) (h : n ≤ serviceMax) : readTime (packTime n ++ b) = some (n, b) := by
  have hb : n ≤ 1079999 := h
  have hany : readTimeAny (packTime n ++ b) = some (n, b) := by
    have ht : takeBytes 4 (packTime n ++ b) = some (packTime n, b) :=
      takeBytes_of_length _ _ 4 (packDigits_length 7 n false)
    have hu : unpackDigits 7 (packTime n) = some (false, n) := unpackDigits_packDigits 3 n false (by omega)
    simp [readTimeAny, bind, StateT.bind, ht, hu, pure, StateT.pure]
  show (readTimeAny (packTime n ++ b)).bind _ = _
  rw [hany]
  show (need (decide (n ≤ serviceMax)) b).bind _ = _
  simp [need, h]
  rfl

/-- A lateness is read back. -/
theorem readLateness_packLateness (x : Int) (b : Bytes) (h1 : -999 ≤ x) (h2 : x ≤ 999) :
    readLateness (packLateness x ++ b) = some (x, b) := by
  have ht : takeBytes 2 (packLateness x ++ b) = some (packLateness x, b) :=
    takeBytes_of_length _ _ 2 (packDigits_length 3 _ _)
  have hu : unpackDigits 3 (packLateness x) = some (decide (x < 0), x.natAbs) :=
    unpackDigits_packDigits 1 x.natAbs _ (by omega)
  by_cases h : x < 0
  · have hx : -((x.natAbs : Nat) : Int) = x := by omega
    simp only [readLateness, bind, StateT.bind, ht, hu, h, decide_true, pure, StateT.pure, Option.bind_some]
    rw [hx]
  · have hx : ((x.natAbs : Nat) : Int) = x := by omega
    simp only [readLateness, bind, StateT.bind, ht, hu, h, decide_false, pure, StateT.pure, Option.bind_some]
    rw [hx]

theorem crcBit_lt (w poly crc : Nat) : crcBit w poly crc < 2 ^ w := by
  unfold crcBit
  split <;> exact Nat.mod_lt _ (Nat.two_pow_pos w)

theorem crcBits_lt (w poly k crc : Nat) (h : 0 < k) : crcBits w poly k crc < 2 ^ w := by
  induction k generalizing crc with
  | zero => omega
  | succ k ih =>
    cases k with
    | zero => exact crcBit_lt w poly crc
    | succ k => exact ih _ (by omega)

/-- A checksum of width 16 fits two bytes. -/
theorem crc16_lt (bs : Bytes) : crc16 bs < 65536 := by
  unfold crc16 crcOver
  have key : ∀ (bs : Bytes) (x : Nat), x < 65536 →
      List.foldl (fun crc (b : Byte) => crcBits 16 0x1021 8 (crc ^^^ (b.toNat * 2 ^ (16 - 8)))) x bs < 65536 := by
    intro bs
    induction bs with
    | nil => exact fun x h => h
    | cons b bs ih => exact fun x _ => ih _ (crcBits_lt 16 0x1021 8 _ (by omega))
  exact key bs _ (by omega)

end Sys2Proof.Machine
end

