-- ==== Sys2Proof/WellFormed.lean ====
section
/-! DEFINITION. Well-formed commands: operands within the ranges the manual gives what they name. An ill-formed command
names nothing of the part, and changes nothing (log 1). -/

namespace Sys2Proof

/-- Track inputs: 8, numbered from 0 (00 1.2). -/
def inputRoom : Nat := 8

/-- Platform records: up to 4, numbered from 0 (1.4). -/
def platformRoom : Nat := 4

/-- Section records: up to 4, numbered from 0 (4.1). -/
def sectionRoom : Nat := 4

/-- REFCLK cycles in a tick (R148). -/
def cycleRoom : Nat := 100000

/-- Record tags: 0 to 65,535 (R2). -/
def tagRoom : Nat := 65536

/-- A node number: 1 to 32 (00 1.1). -/
def nodeOk (n : Nat) : Bool := decide (1 ≤ n ∧ n ≤ 32)

/-- An incident serial: 1 to 4,095 (Table 6-1). -/
def serialOk (n : Nat) : Bool := decide (1 ≤ n ∧ n ≤ 4095)

/-- Longest station link frame (12.3). -/
def frameRoom : Nat := 160

/-- Longest telegram: a header of 5 bytes, a body of as many as its length byte can say, and a CRC of 2 (R200). -/
def telegramRoom : Nat := 262

/-- The operands of a command are within their ranges. -/
def Instr.wf : Instr → Bool
  | .trackInputChange i c _ => decide (i < inputRoom ∧ c < cycleRoom)
  | .firstLevel i c | .berthRise i c | .brakePointRise i c | .berthFall i c | .brakePointFall i c =>
    decide (i < inputRoom ∧ c < cycleRoom)
  | .dwellMark p | .dwellExpiry p | .authWaitExpiry p | .cueWaitExpiry p | .powerWaitExpiry p
  | .retryWaitEnd p | .askWaitEnd p => decide (p < platformRoom)
  | .handoverRetryExpiry t | .orphanRetryExpiry t | .stallWatchExpiry t => decide (t < tagRoom)
  | .gateCompletion k _ | .recloseDelayExpiry k | .closeAllowanceExpiry k | .countedStartExpiry k
  | .queuedAskRefreshExpiry k | .takenStartExpiry k => decide (k < sectionRoom)
  | .clearedLingerEnd n i | .peerAgeing n i => nodeOk n && serialOk i
  | .escalationExpiry i | .incidentRefresh i => serialOk i
  | .transmitStart c _ _ | .telegramSent c | .collision c | .echoFault c => decide (c < cycleRoom)
  | .telegramReceived c bs => decide (c < cycleRoom ∧ bs.length ≤ telegramRoom)
  | .fragment c bs => decide (c < cycleRoom ∧ bs.length ≤ telegramRoom)
  | .neighbourAbsent n => nodeOk n
  | .validFrame bs => decide (bs.length ≤ frameRoom)
  | .powerOn | .resetAssert | .resetRelease | .imageChecked _ | .listenEnd | .rebuildTimerExpiry | .restartNode
  | .warmStart | .tick | .clockTrim | .statusPeriod | .handover | .takeover | .refusal | .renewAsk | .renewReply
  | .isolateSection | .restoreSection | .powerAsk | .powerReturn | .powerGrant | .powerDefer | .ackIncident
  | .clearIncident | .declareIncident | .clearOverflow | .incident | .announce | .cancelAnnounce
  | .wakeTimerExpiry | .readyRise | .readyFall | .playerTimerExpiry | .lineBusFaultQuietEnd | .status | .planOpen
  | .planBlock | .planClose | .planTimerExpiry | .answer | .point | .sweepBegin | .sweepEnd | .sweepWaitEnd
  | .stationLinkSilence | .stationLinkBreak | .commandFrameSent | .workstationDirective | .planClear | .planEntry
  | .planSend | .unknownDirective | .holdTrain | .releaseTrain | .withdrawRun | .insertRun | .setMode | .fieldQuery
  | .dayStart => true

end Sys2Proof
end

