-- ==== Sys2Proof/Laws/PerInstr.lean ====
section
/-! SUPPORT. Statements made for each command: the ranges that well-formedness gives its operands. -/

namespace Sys2Proof.Laws.OperandRange

open Sys2Proof

/-- The cycle at which a command happens within its tick. -/
def cycleOf : Instr → Option Nat
  | .trackInputChange _ c _ | .firstLevel _ c | .berthRise _ c | .brakePointRise _ c | .berthFall _ c
  | .brakePointFall _ c | .transmitStart c _ _ | .telegramSent c | .collision c | .echoFault c | .telegramReceived c _
  | .fragment c _ => some c
  | _ => none

/-- The track input a command names. -/
def inputOf : Instr → Option Nat
  | .trackInputChange i _ _ | .firstLevel i _ | .berthRise i _ | .brakePointRise i _ | .berthFall i _
  | .brakePointFall i _ => some i
  | _ => none

/-- The platform or section record a command names; there are four of each (1.4, 4.1). -/
def recordOf : Instr → Option Nat
  | .dwellMark p | .dwellExpiry p | .authWaitExpiry p | .cueWaitExpiry p | .powerWaitExpiry p | .retryWaitEnd p
  | .askWaitEnd p | .gateCompletion p _ | .recloseDelayExpiry p | .closeAllowanceExpiry p | .countedStartExpiry p
  | .queuedAskRefreshExpiry p | .takenStartExpiry p => some p
  | _ => none

/-- A well-formed command's cycle lies within a tick, and what it names exists on the part. -/
def Statement (i : Instr) : Prop :=
  i.wf = true →
    (∀ c, cycleOf i = some c → c < 100000) ∧ (∀ n, inputOf i = some n → n < 8) ∧ (∀ k, recordOf i = some k → k < 4)

/-- All of them. -/
theorem every (i : Instr) : Statement i := by
  intro h
  cases i <;> simp only [Instr.wf, decide_eq_true_eq] at h <;>
    refine ⟨?_, ?_, ?_⟩ <;> intro n hn <;> simp only [cycleOf, inputOf, recordOf, Option.some.injEq,
        reduceCtorEq] at hn <;>
    simp_all [cycleRoom, inputRoom, platformRoom, sectionRoom] <;> omega

theorem powerOn : Statement .powerOn := every _

theorem resetAssert : Statement .resetAssert := every _

theorem resetRelease : Statement .resetRelease := every _

theorem imageChecked : ∀ image, Statement (.imageChecked image) := fun _ => every _

theorem listenEnd : Statement .listenEnd := every _

theorem rebuildTimerExpiry : Statement .rebuildTimerExpiry := every _

theorem restartNode : Statement .restartNode := every _

theorem warmStart : Statement .warmStart := every _

theorem tick : Statement .tick := every _

theorem clockTrim : Statement .clockTrim := every _

theorem statusPeriod : Statement .statusPeriod := every _

theorem trackInputChange : ∀ input cycle high, Statement (.trackInputChange input cycle high) := fun _ _ _ => every _

theorem firstLevel : ∀ input cycle, Statement (.firstLevel input cycle) := fun _ _ => every _

theorem berthRise : ∀ input cycle, Statement (.berthRise input cycle) := fun _ _ => every _

theorem brakePointRise : ∀ input cycle, Statement (.brakePointRise input cycle) := fun _ _ => every _

theorem berthFall : ∀ input cycle, Statement (.berthFall input cycle) := fun _ _ => every _

theorem dwellMark : ∀ platform, Statement (.dwellMark platform) := fun _ => every _

theorem dwellExpiry : ∀ platform, Statement (.dwellExpiry platform) := fun _ => every _

theorem authWaitExpiry : ∀ platform, Statement (.authWaitExpiry platform) := fun _ => every _

theorem cueWaitExpiry : ∀ platform, Statement (.cueWaitExpiry platform) := fun _ => every _

theorem powerWaitExpiry : ∀ platform, Statement (.powerWaitExpiry platform) := fun _ => every _

theorem handoverRetryExpiry : ∀ tag, Statement (.handoverRetryExpiry tag) := fun _ => every _

theorem orphanRetryExpiry : ∀ tag, Statement (.orphanRetryExpiry tag) := fun _ => every _

theorem handover : Statement .handover := every _

theorem takeover : Statement .takeover := every _

theorem refusal : Statement .refusal := every _

theorem stallWatchExpiry : ∀ tag, Statement (.stallWatchExpiry tag) := fun _ => every _

theorem renewAsk : Statement .renewAsk := every _

theorem renewReply : Statement .renewReply := every _

theorem gateCompletion : ∀ record edges, Statement (.gateCompletion record edges) := fun _ _ => every _

theorem recloseDelayExpiry : ∀ record, Statement (.recloseDelayExpiry record) := fun _ => every _

theorem closeAllowanceExpiry : ∀ record, Statement (.closeAllowanceExpiry record) := fun _ => every _

theorem isolateSection : Statement .isolateSection := every _

theorem restoreSection : Statement .restoreSection := every _

theorem countedStartExpiry : ∀ record, Statement (.countedStartExpiry record) := fun _ => every _

theorem retryWaitEnd : ∀ platform, Statement (.retryWaitEnd platform) := fun _ => every _

theorem askWaitEnd : ∀ platform, Statement (.askWaitEnd platform) := fun _ => every _

theorem powerAsk : Statement .powerAsk := every _

theorem queuedAskRefreshExpiry : ∀ record, Statement (.queuedAskRefreshExpiry record) := fun _ => every _

theorem powerReturn : Statement .powerReturn := every _

theorem powerGrant : Statement .powerGrant := every _

theorem powerDefer : Statement .powerDefer := every _

theorem takenStartExpiry : ∀ record, Statement (.takenStartExpiry record) := fun _ => every _

theorem ackIncident : Statement .ackIncident := every _

theorem clearIncident : Statement .clearIncident := every _

theorem declareIncident : Statement .declareIncident := every _

theorem clearOverflow : Statement .clearOverflow := every _

theorem clearedLingerEnd : ∀ origin serial, Statement (.clearedLingerEnd origin serial) := fun _ _ => every _

theorem escalationExpiry : ∀ serial, Statement (.escalationExpiry serial) := fun _ => every _

theorem incident : Statement .incident := every _

theorem peerAgeing : ∀ origin serial, Statement (.peerAgeing origin serial) := fun _ _ => every _

theorem incidentRefresh : ∀ serial, Statement (.incidentRefresh serial) := fun _ => every _

theorem announce : Statement .announce := every _

theorem cancelAnnounce : Statement .cancelAnnounce := every _

theorem wakeTimerExpiry : Statement .wakeTimerExpiry := every _

theorem readyRise : Statement .readyRise := every _

theorem readyFall : Statement .readyFall := every _

theorem playerTimerExpiry : Statement .playerTimerExpiry := every _

theorem transmitStart : ∀ cycle quiet echoed, Statement (.transmitStart cycle quiet echoed) := fun _ _ _ => every _

theorem telegramSent : ∀ cycle, Statement (.telegramSent cycle) := fun _ => every _

theorem collision : ∀ cycle, Statement (.collision cycle) := fun _ => every _

theorem echoFault : ∀ cycle, Statement (.echoFault cycle) := fun _ => every _

theorem lineBusFaultQuietEnd : Statement .lineBusFaultQuietEnd := every _

theorem telegramReceived : ∀ cycle bytes, Statement (.telegramReceived cycle bytes) := fun _ _ => every _

theorem status : Statement .status := every _

theorem neighbourAbsent : ∀ node, Statement (.neighbourAbsent node) := fun _ => every _

theorem planOpen : Statement .planOpen := every _

theorem planBlock : Statement .planBlock := every _

theorem planClose : Statement .planClose := every _

theorem planTimerExpiry : Statement .planTimerExpiry := every _

theorem answer : Statement .answer := every _

theorem validFrame : ∀ bytes, Statement (.validFrame bytes) := fun _ => every _

theorem point : Statement .point := every _

theorem sweepBegin : Statement .sweepBegin := every _

theorem sweepEnd : Statement .sweepEnd := every _

theorem sweepWaitEnd : Statement .sweepWaitEnd := every _

theorem stationLinkSilence : Statement .stationLinkSilence := every _

theorem stationLinkBreak : Statement .stationLinkBreak := every _

theorem commandFrameSent : Statement .commandFrameSent := every _

theorem workstationDirective : Statement .workstationDirective := every _

theorem planClear : Statement .planClear := every _

theorem planEntry : Statement .planEntry := every _

theorem planSend : Statement .planSend := every _

theorem unknownDirective : Statement .unknownDirective := every _

theorem holdTrain : Statement .holdTrain := every _

theorem releaseTrain : Statement .releaseTrain := every _

theorem withdrawRun : Statement .withdrawRun := every _

theorem insertRun : Statement .insertRun := every _

theorem setMode : Statement .setMode := every _

theorem fieldQuery : Statement .fieldQuery := every _

theorem dayStart : Statement .dayStart := every _

theorem fragment : ∀ cycle bytes, Statement (.fragment cycle bytes) := fun _ _ => every _

theorem brakePointFall : ∀ input cycle, Statement (.brakePointFall input cycle) := fun _ _ => every _

end Sys2Proof.Laws.OperandRange
end

