-- ==== Sys2Proof/Laws/Places.lean ====
section
/-! SUPPORT. What the operations that fill the lists of the state give: the places they keep to, and what a reader of
the configuration image answers. -/

namespace Sys2Proof.Machine

open Sys2Proof

/-! ## Lists with places -/

/-- What keeps the last `n` of a list keeps to `n` places. -/
theorem keepLast_room {α : Type} (l : List α) (n : Nat) : (l.drop (l.length - n)).length ≤ n := by
  rw [List.length_drop]; omega

theorem joinHistory_room {α : Type} (x : α) (l : List α) : (joinHistory x l).length ≤ historyRoom := keepLast_room _ _

theorem joinAttempt_room (t : Nat) (l : List Nat) : (joinAttempt t l).length ≤ attemptRoom := keepLast_room _ _

/-- With at most one attempt listed none leaves the list. -/
theorem joinAttempt_keeps (t : Nat) (l : List Nat) (h : l.length ≤ 1) : joinAttempt t l = l ++ [t] := by
  have : (l ++ [t]).length - attemptRoom = 0 := by simp only [attemptRoom, List.length_append, List.length_singleton]; omega
  simp only [joinAttempt, this, List.drop_zero]

theorem putElements_room (c : AnnounceCfg) (slots : List Nat) (num : Nat) (es : List Element) (cur : Nat)
    (fifo : List Phrase) (h : fifo.length ≤ fifoRoom) : (putElements c slots num es cur fifo).2.length ≤ fifoRoom := by
  induction es generalizing cur fifo with
  | nil => exact h
  | cons e es ih =>
    unfold putElements
    simp only
    split
    · exact ih _ _ (by simpa [tagPhrases] using by assumption)
    · exact h

theorem stage_room (s : State) (e : PlanEntry) (h : s.ttu.staging.length ≤ launchRoom) :
    (s.stage e).ttu.staging.length ≤ launchRoom := by
  unfold State.stage
  (repeat' split) <;> first
    | exact h
    | (simp only [List.length_append, List.length_singleton, launchRoom] at *; omega)

theorem insertLaunch_length (e : LaunchEntry) (l : List LaunchEntry) : (insertLaunch e l).length = l.length + 1 := by
  induction l with
  | nil => rfl
  | cons x xs ih => unfold insertLaunch; split <;> simp [ih]

theorem insertUrgent_length (x : CmdItem) (l : List CmdItem) : (insertUrgent x l).length = l.length + 1 := by
  induction l with
  | nil => rfl
  | cons y ys ih => unfold insertUrgent; split <;> simp [ih]

theorem placeWaiting_length (x : CmdItem) (l : List CmdItem) : (placeWaiting x l).length = l.length + 1 := by
  unfold placeWaiting
  split
  · exact insertUrgent_length x l
  · simp

/-- Among commands that have not started an urgent one stands behind the urgent ones that lead and ahead of all others
(R185). -/
theorem placeWaiting_urgent (x : CmdItem) (l : List CmdItem) (h : x.cmd.urgent = true) :
    placeWaiting x l = l.takeWhile (·.cmd.urgent) ++ x :: l.dropWhile (·.cmd.urgent) := by
  simp only [placeWaiting, h, if_true]
  induction l with
  | nil => rfl
  | cons y ys ih => unfold insertUrgent; split <;> simp_all

theorem placeCmd_length (x : CmdItem) (l : List CmdItem) : (placeCmd x l).length = l.length + 1 := by
  cases l with
  | nil => rfl
  | cons h t => simp [placeCmd, placeWaiting_length]

theorem joinTaken_room (x : Taken) (l : List Taken) : (joinTaken x l).length ≤ takenRoom := keepLast_room _ _

theorem insertAsk_length (a : QueuedAsk) (q : List QueuedAsk) : (insertAsk a q).length = q.length + 1 := by
  induction q with
  | nil => rfl
  | cons x xs ih => unfold insertAsk; split <;> simp [ih]

theorem dropPair_length (node p : Nat) (q : List QueuedAsk) : (dropPair node p q).length ≤ q.length :=
  List.length_filter_le _ _

theorem insertRequest_length (r : Request) (q : List Request) : (insertRequest r q).length = q.length + 1 := by
  induction q with
  | nil => rfl
  | cons x xs ih => unfold insertRequest; split <;> simp [ih]

/-- A place given is a free one. -/
theorem annPlace_room (s t : State) (n : Nat) (hs : s.anu.queue.length ≤ annRoom) (h : s.annPlace n = some t) :
    t.anu.queue.length < annRoom := by
  unfold State.annPlace at h
  split at h
  · cases h; assumption
  · split at h
    · split at h
      · rename_i hx _ _ _ _
        cases h
        have : s.anu.queue.length ≠ 0 := by intro h0; simp_all
        show (s.anu.queue.dropLast).length < annRoom
        rw [List.length_dropLast]
        simp only [annRoom] at *
        omega
      · cases h
    · cases h

theorem putRequest_queue (s : State) (r : Request) :
    (s.putRequest r).anu.queue.length = s.anu.queue.length + 1 := insertRequest_length _ _

theorem releaseOpt_anu (s : State) (h : Option Handle) : (s.releaseOpt h).anu = s.anu := by
  unfold State.releaseOpt State.releaseTimer State.endExhaustion State.updPairOf State.updChan State.updPlace State.post
  (repeat' split) <;> rfl

theorem dropWake_queue (s : State) : s.dropWake.anu.queue = s.anu.queue := by
  unfold State.dropWake
  split
  · rfl
  · simp [releaseOpt_anu]

/-- A request that joins keeps the queue within its places. -/
theorem enqueue_room (s : State) (r : Request) (hs : s.anu.queue.length ≤ annRoom) :
    (s.enqueue r).1.anu.queue.length ≤ annRoom := by
  unfold State.enqueue
  split
  · rename_i t h
    have h1 := annPlace_room s t r.priority hs h
    simp only [dropWake_queue, putRequest_queue]
    omega
  · exact hs

theorem joinRequest_room (s : State) (q : AnnReq) (hs : s.anu.queue.length ≤ annRoom) :
    (s.joinRequest q).1.anu.queue.length ≤ annRoom := by
  unfold State.joinRequest
  split
  · rename_i t h
    have h1 := annPlace_room s t q.priority hs h
    simp only [State.post, dropWake_queue, State.joinNew, putRequest_queue]
    omega
  · exact hs

/-! ## Bounds -/

theorem clampInt_eq (a b x : Int) (h : a ≤ b) : clampInt a b x = max a (min b x) := by
  unfold clampInt
  split
  · omega
  · split <;> omega

/-- The regulated dwell lies within Dmin and Dp + Hmax (R28). -/
theorem regulatedDwell_bounds (c : PlatformCfg) (w aa : Nat) (pd : Int) (b : Option Int) (h : c.dmin ≤ c.dp) :
    (c.dmin : Int) ≤ regulatedDwell c w aa pd b ∧ regulatedDwell c w aa pd b ≤ (c.dp : Int) + c.hmax := by
  unfold regulatedDwell
  rw [clampInt_eq _ _ _ (by omega)]
  omega

/-- A regen match keeps the target in the same bounds (R29). -/
theorem regenTarget_bounds (c : PlatformCfg) (aa : Nat) (tb : Int) (h : c.dmin ≤ c.dp) :
    (aa : Int) + c.dmin ≤ regenTarget c aa tb ∧ regenTarget c aa tb ≤ (aa : Int) + c.dp + c.hmax := by
  unfold regenTarget
  omega

/-! ## Timers -/

/-- A load again keeps the pool's channels and the coarse places in number. -/
theorem reloadTimer_slots (s : State) (h : Handle) (n : Nat) (mark : Option Nat) (periodic : Bool) :
    (s.reloadTimer h n mark periodic).tiu.chans.length = s.tiu.chans.length ∧
      (s.reloadTimer h n mark periodic).tiu.coarse.length = s.tiu.coarse.length := by
  unfold State.reloadTimer State.expireNow State.loadHeld State.updChan State.updPlace State.post
  (repeat' split) <;> simp

/-- A load of 0 on a held channel sets nothing: its owner is given the expiry in the same event (R150). -/
theorem reloadTimer_zero (s : State) (h : Handle) (i : Nat) (o : TimerOwner) (mark : Option Nat) (periodic : Bool)
    (hh : s.holds h = true) (hc : h.slot = .chan i) (ho : (s.chan i).owner = some o) :
    s.reloadTimer h 0 mark periodic = s.post (.timerExpired o) := by
  simp [State.reloadTimer, State.expireNow, hh, hc, ho]

/-! ## What a reader of the configuration image answers -/

/-- Every answer of a reader has a property. -/
abbrev Gives {α : Type} (r : Reader α) (P : α → Prop) : Prop := ∀ bs x rest, r bs = some (x, rest) → P x

theorem gives_pure {α : Type} {P : α → Prop} {x : α} (h : P x) : Gives (pure x) P := by
  intro bs y rest e
  cases e
  exact h

theorem gives_bind {α β : Type} {r : Reader α} {f : α → Reader β} {Q : α → Prop} {P : β → Prop} (hr : Gives r Q)
    (hf : ∀ x, Q x → Gives (f x) P) : Gives (r >>= f) P := by
  intro bs y rest e
  cases h : r bs with
  | none => simp [bind, StateT.bind, h] at e
  | some v => exact hf v.1 (hr bs v.1 v.2 h) v.2 y rest (by simpa [bind, StateT.bind, h] using e)

theorem gives_any {α : Type} (r : Reader α) : Gives r (fun _ => True) := fun _ _ _ _ => trivial

theorem gives_need {P : Unit → Prop} (b : Bool) (h : b = true → P ()) : Gives (need b) P := by
  intro bs y rest e
  unfold need at e
  split at e
  · exact h (by assumption)
  · cases e

theorem gives_readIn (w lo hi : Nat) : Gives (readIn w lo hi) (fun n => lo ≤ n ∧ n ≤ hi) :=
  gives_bind (gives_any _) (fun n _ =>
    gives_bind (gives_need (P := fun _ => lo ≤ n ∧ n ≤ hi) _ (fun h => by simpa using h)) (fun _ h => gives_pure h))

theorem gives_readMany {α : Type} {r : Reader α} {P : α → Prop} (h : Gives r P) (k : Nat) :
    Gives (readMany r k) (fun l => ∀ x ∈ l, P x) := by
  induction k with
  | zero => exact gives_pure (by simp)
  | succ k ih =>
    exact gives_bind h (fun x hx => gives_bind ih (fun xs hxs => gives_pure (by simpa using ⟨hx, hxs⟩)))

/-- A section record's limit is at most 3 (Table 4-1). -/
theorem readSectionCfg_limit : Gives readSectionCfg (fun c => c.limit ≤ 3) :=
  gives_bind (gives_any _) fun _ _ => gives_bind (gives_any _) fun _ _ => gives_bind (gives_any _) fun _ _ =>
    gives_bind (gives_any _) fun _ _ => gives_bind (gives_any _) fun _ _ => gives_bind (gives_readIn 1 1 3) fun _ h =>
      gives_bind (gives_any _) fun _ _ => gives_bind (gives_any _) fun _ _ => gives_bind (gives_any _) fun _ _ =>
        gives_bind (gives_any _) fun _ _ => gives_bind (gives_any _) fun _ _ => gives_pure h.2

/-- No section has a limit above 3. -/
abbrev LimitsFit (c : NodeConfig) : Prop := ∀ x ∈ c.sections, x.limit ≤ 3

theorem readGroup_limits (code : Nat) (c : NodeConfig) (hc : LimitsFit c) : Gives (readGroup code c) LimitsFit := by
  unfold readGroup
  split
  · exact gives_bind (gives_any _) fun _ _ => gives_bind (gives_any _) fun _ _ => gives_bind (gives_any _) fun _ _ =>
      gives_pure hc
  · exact gives_bind (gives_any _) fun _ _ => gives_bind (gives_any _) fun _ _ => gives_bind (gives_any _) fun _ _ =>
      gives_bind (gives_any _) fun _ _ => gives_bind (gives_any _) fun _ _ => gives_pure hc
  · exact gives_bind (gives_any _) fun _ _ => gives_bind (gives_any _) fun _ _ => gives_pure hc
  · exact gives_bind (gives_any _) fun _ _ => gives_bind (gives_any _) fun _ _ => gives_pure hc
  · exact gives_bind (gives_any _) fun _ _ =>
      gives_bind (gives_readMany readSectionCfg_limit _) fun _ h => gives_pure h
  · exact gives_bind (gives_any _) fun _ _ => gives_bind (gives_any _) fun _ _ => gives_bind (gives_any _) fun _ _ =>
      gives_pure hc
  · exact gives_bind (gives_any _) fun _ _ => gives_bind (gives_any _) fun _ _ => gives_bind (gives_any _) fun _ _ =>
      gives_pure hc
  · exact gives_bind (gives_any _) fun _ _ => gives_bind (gives_any _) fun _ _ => gives_pure hc
  · iterate 14 refine gives_bind (gives_any _) fun _ _ => ?_
    exact gives_pure hc
  · exact gives_bind (gives_any _) fun _ _ => gives_pure hc
  · exact gives_bind (gives_any _) fun _ _ => gives_pure hc
  · intro bs x rest h
    cases h

theorem readGroups_limits (fuel last : Nat) (c : NodeConfig) (bs : Bytes) (d : NodeConfig) (hc : LimitsFit c)
    (h : readGroups fuel last c bs = some d) : LimitsFit d := by
  induction fuel generalizing last c bs with
  | zero =>
    cases bs with
    | nil => simp only [readGroups] at h; split at h <;> cases h; exact hc
    | cons x xs => cases h
  | succ fuel ih =>
    cases bs with
    | nil => simp only [readGroups] at h; split at h <;> cases h; exact hc
    | cons code rest =>
      simp only [readGroups] at h
      split at h
      · cases h
      · split at h
        · cases h
        · split at h
          · cases h
          · split at h
            · rename_i n body _ _ c1 hr
              refine ih _ c1 _ ?_ h
              unfold readAll at hr
              split at hr
              · rename_i x hx
                cases hr
                exact readGroup_limits _ c hc _ _ _ hx
              · cases hr
            · cases h

/-- The constants of an image that passes its checks give no section a limit above 3. -/
theorem parseImage_limits (image : Bytes) (c : NodeConfig) (h : parseImage image = some c) : LimitsFit c := by
  unfold parseImage at h
  split at h
  · cases h
  · split at h
    · rename_i gs _ d hd
      split at h
      · cases h; exact readGroups_limits _ _ _ _ _ (by simp [LimitsFit, NodeConfig.blank]) hd
      · cases h
    · cases h

end Sys2Proof.Machine
end

