-- ==== Sys2Proof/Laws/State.lean ====
section
/-! SUPPORT. What each plain update of the state changes, and that it leaves the other fields: all true by unfolding. -/

namespace Sys2Proof.Machine

open Sys2Proof

@[simp] theorem post_work (s : State) (m : Msg) :
    (s.post m).work = s.work ++ [m] := rfl

@[simp] theorem post_rest (s : State) (m : Msg) :
    (s.post m).cfg = s.cfg ∧ (s.post m).cfl = s.cfl ∧ (s.post m).ttu = s.ttu ∧ (s.post m).rge = s.rge ∧
      (s.post m).hoe = s.hoe ∧ (s.post m).secs = s.secs ∧ (s.post m).sar = s.sar ∧ (s.post m).inu = s.inu ∧
      (s.post m).anu = s.anu ∧ (s.post m).tiu = s.tiu ∧ (s.post m).lbc = s.lbc ∧ (s.post m).slc = s.slc ∧
      (s.post m).dck = s.dck ∧ (s.post m).pins = s.pins ∧ (s.post m).runTime = s.runTime ∧
      (s.post m).refMoment = s.refMoment ∧ (s.post m).pending = s.pending :=
    ⟨rfl, rfl, rfl, rfl, rfl, rfl, rfl, rfl, rfl, rfl, rfl, rfl, rfl, rfl, rfl, rfl, rfl⟩

@[simp] theorem posts_work (s : State) (ms : List Msg) :
    (s.posts ms).work = s.work ++ ms := rfl

@[simp] theorem posts_rest (s : State) (ms : List Msg) :
    (s.posts ms).cfg = s.cfg ∧ (s.posts ms).cfl = s.cfl ∧ (s.posts ms).ttu = s.ttu ∧ (s.posts ms).rge = s.rge ∧
      (s.posts ms).hoe = s.hoe ∧ (s.posts ms).secs = s.secs ∧ (s.posts ms).sar = s.sar ∧ (s.posts ms).inu = s.inu ∧
      (s.posts ms).anu = s.anu ∧ (s.posts ms).tiu = s.tiu ∧ (s.posts ms).lbc = s.lbc ∧ (s.posts ms).slc = s.slc ∧
      (s.posts ms).dck = s.dck ∧ (s.posts ms).pins = s.pins ∧ (s.posts ms).runTime = s.runTime ∧
      (s.posts ms).refMoment = s.refMoment ∧ (s.posts ms).pending = s.pending :=
    ⟨rfl, rfl, rfl, rfl, rfl, rfl, rfl, rfl, rfl, rfl, rfl, rfl, rfl, rfl, rfl, rfl, rfl⟩

@[simp] theorem raise_work (s : State) (k : IncKind) (l : Loc) :
    (s.raise k l).work = s.work ++ [.raise { kind := k, loc := l, cover := none, severity := none, effects := none }] := rfl

@[simp] theorem raise_rest (s : State) (k : IncKind) (l : Loc) :
    (s.raise k l).cfg = s.cfg ∧ (s.raise k l).cfl = s.cfl ∧ (s.raise k l).ttu = s.ttu ∧ (s.raise k l).rge = s.rge ∧
      (s.raise k l).hoe = s.hoe ∧ (s.raise k l).secs = s.secs ∧ (s.raise k l).sar = s.sar ∧
      (s.raise k l).inu = s.inu ∧ (s.raise k l).anu = s.anu ∧ (s.raise k l).tiu = s.tiu ∧ (s.raise k l).lbc = s.lbc ∧
      (s.raise k l).slc = s.slc ∧ (s.raise k l).dck = s.dck ∧ (s.raise k l).pins = s.pins ∧
      (s.raise k l).runTime = s.runTime ∧ (s.raise k l).refMoment = s.refMoment ∧ (s.raise k l).pending = s.pending :=
    ⟨rfl, rfl, rfl, rfl, rfl, rfl, rfl, rfl, rfl, rfl, rfl, rfl, rfl, rfl, rfl, rfl, rfl⟩

@[simp] theorem raiseOver_work (s : State) (k : IncKind) (l : Loc) (c : Option Span) :
    (s.raiseOver k l c).work = s.work ++ [.raise { kind := k, loc := l, cover := some c, severity := none, effects := none }] := rfl

@[simp] theorem raiseOver_rest (s : State) (k : IncKind) (l : Loc) (c : Option Span) :
    (s.raiseOver k l c).cfg = s.cfg ∧ (s.raiseOver k l c).cfl = s.cfl ∧ (s.raiseOver k l c).ttu = s.ttu ∧
      (s.raiseOver k l c).rge = s.rge ∧ (s.raiseOver k l c).hoe = s.hoe ∧ (s.raiseOver k l c).secs = s.secs ∧
      (s.raiseOver k l c).sar = s.sar ∧ (s.raiseOver k l c).inu = s.inu ∧ (s.raiseOver k l c).anu = s.anu ∧
      (s.raiseOver k l c).tiu = s.tiu ∧ (s.raiseOver k l c).lbc = s.lbc ∧ (s.raiseOver k l c).slc = s.slc ∧
      (s.raiseOver k l c).dck = s.dck ∧ (s.raiseOver k l c).pins = s.pins ∧ (s.raiseOver k l c).runTime = s.runTime ∧
      (s.raiseOver k l c).refMoment = s.refMoment ∧ (s.raiseOver k l c).pending = s.pending :=
    ⟨rfl, rfl, rfl, rfl, rfl, rfl, rfl, rfl, rfl, rfl, rfl, rfl, rfl, rfl, rfl, rfl, rfl⟩

@[simp] theorem updPlat_ttu (s : State) (p : Nat) (f : PlatDyn → PlatDyn) :
    (s.updPlat p f).ttu = { s.ttu with plats := s.ttu.plats.modify p f } := rfl

@[simp] theorem updPlat_rest (s : State) (p : Nat) (f : PlatDyn → PlatDyn) :
    (s.updPlat p f).cfg = s.cfg ∧ (s.updPlat p f).cfl = s.cfl ∧ (s.updPlat p f).rge = s.rge ∧
      (s.updPlat p f).hoe = s.hoe ∧ (s.updPlat p f).secs = s.secs ∧ (s.updPlat p f).sar = s.sar ∧
      (s.updPlat p f).inu = s.inu ∧ (s.updPlat p f).anu = s.anu ∧ (s.updPlat p f).tiu = s.tiu ∧
      (s.updPlat p f).lbc = s.lbc ∧ (s.updPlat p f).slc = s.slc ∧ (s.updPlat p f).dck = s.dck ∧
      (s.updPlat p f).pins = s.pins ∧ (s.updPlat p f).runTime = s.runTime ∧ (s.updPlat p f).refMoment = s.refMoment ∧
      (s.updPlat p f).work = s.work ∧ (s.updPlat p f).pending = s.pending :=
    ⟨rfl, rfl, rfl, rfl, rfl, rfl, rfl, rfl, rfl, rfl, rfl, rfl, rfl, rfl, rfl, rfl, rfl⟩

@[simp] theorem updCtx_rge (s : State) (p : Nat) (f : Ctx → Ctx) :
    (s.updCtx p f).rge = { s.rge with ctxs := s.rge.ctxs.modify p f } := rfl

@[simp] theorem updCtx_rest (s : State) (p : Nat) (f : Ctx → Ctx) :
    (s.updCtx p f).cfg = s.cfg ∧ (s.updCtx p f).cfl = s.cfl ∧ (s.updCtx p f).ttu = s.ttu ∧
      (s.updCtx p f).hoe = s.hoe ∧ (s.updCtx p f).secs = s.secs ∧ (s.updCtx p f).sar = s.sar ∧
      (s.updCtx p f).inu = s.inu ∧ (s.updCtx p f).anu = s.anu ∧ (s.updCtx p f).tiu = s.tiu ∧
      (s.updCtx p f).lbc = s.lbc ∧ (s.updCtx p f).slc = s.slc ∧ (s.updCtx p f).dck = s.dck ∧
      (s.updCtx p f).pins = s.pins ∧ (s.updCtx p f).runTime = s.runTime ∧ (s.updCtx p f).refMoment = s.refMoment ∧
      (s.updCtx p f).work = s.work ∧ (s.updCtx p f).pending = s.pending :=
    ⟨rfl, rfl, rfl, rfl, rfl, rfl, rfl, rfl, rfl, rfl, rfl, rfl, rfl, rfl, rfl, rfl, rfl⟩

@[simp] theorem updSec_secs (s : State) (k : Nat) (f : SecDyn → SecDyn) :
    (s.updSec k f).secs = s.secs.modify k f := rfl

@[simp] theorem updSec_rest (s : State) (k : Nat) (f : SecDyn → SecDyn) :
    (s.updSec k f).cfg = s.cfg ∧ (s.updSec k f).cfl = s.cfl ∧ (s.updSec k f).ttu = s.ttu ∧
      (s.updSec k f).rge = s.rge ∧ (s.updSec k f).hoe = s.hoe ∧ (s.updSec k f).sar = s.sar ∧
      (s.updSec k f).inu = s.inu ∧ (s.updSec k f).anu = s.anu ∧ (s.updSec k f).tiu = s.tiu ∧
      (s.updSec k f).lbc = s.lbc ∧ (s.updSec k f).slc = s.slc ∧ (s.updSec k f).dck = s.dck ∧
      (s.updSec k f).pins = s.pins ∧ (s.updSec k f).runTime = s.runTime ∧ (s.updSec k f).refMoment = s.refMoment ∧
      (s.updSec k f).work = s.work ∧ (s.updSec k f).pending = s.pending :=
    ⟨rfl, rfl, rfl, rfl, rfl, rfl, rfl, rfl, rfl, rfl, rfl, rfl, rfl, rfl, rfl, rfl, rfl⟩

@[simp] theorem updArb_sar (s : State) (k : Nat) (f : Arb → Arb) :
    (s.updArb k f).sar = { s.sar with arbs := s.sar.arbs.modify k f } := rfl

@[simp] theorem updArb_rest (s : State) (k : Nat) (f : Arb → Arb) :
    (s.updArb k f).cfg = s.cfg ∧ (s.updArb k f).cfl = s.cfl ∧ (s.updArb k f).ttu = s.ttu ∧
      (s.updArb k f).rge = s.rge ∧ (s.updArb k f).hoe = s.hoe ∧ (s.updArb k f).secs = s.secs ∧
      (s.updArb k f).inu = s.inu ∧ (s.updArb k f).anu = s.anu ∧ (s.updArb k f).tiu = s.tiu ∧
      (s.updArb k f).lbc = s.lbc ∧ (s.updArb k f).slc = s.slc ∧ (s.updArb k f).dck = s.dck ∧
      (s.updArb k f).pins = s.pins ∧ (s.updArb k f).runTime = s.runTime ∧ (s.updArb k f).refMoment = s.refMoment ∧
      (s.updArb k f).work = s.work ∧ (s.updArb k f).pending = s.pending :=
    ⟨rfl, rfl, rfl, rfl, rfl, rfl, rfl, rfl, rfl, rfl, rfl, rfl, rfl, rfl, rfl, rfl, rfl⟩

@[simp] theorem updAsker_sar (s : State) (p : Nat) (f : Asker → Asker) :
    (s.updAsker p f).sar = { s.sar with askers := s.sar.askers.modify p f } := rfl

@[simp] theorem updAsker_rest (s : State) (p : Nat) (f : Asker → Asker) :
    (s.updAsker p f).cfg = s.cfg ∧ (s.updAsker p f).cfl = s.cfl ∧ (s.updAsker p f).ttu = s.ttu ∧
      (s.updAsker p f).rge = s.rge ∧ (s.updAsker p f).hoe = s.hoe ∧ (s.updAsker p f).secs = s.secs ∧
      (s.updAsker p f).inu = s.inu ∧ (s.updAsker p f).anu = s.anu ∧ (s.updAsker p f).tiu = s.tiu ∧
      (s.updAsker p f).lbc = s.lbc ∧ (s.updAsker p f).slc = s.slc ∧ (s.updAsker p f).dck = s.dck ∧
      (s.updAsker p f).pins = s.pins ∧ (s.updAsker p f).runTime = s.runTime ∧
      (s.updAsker p f).refMoment = s.refMoment ∧ (s.updAsker p f).work = s.work ∧ (s.updAsker p f).pending = s.pending :=
    ⟨rfl, rfl, rfl, rfl, rfl, rfl, rfl, rfl, rfl, rfl, rfl, rfl, rfl, rfl, rfl, rfl, rfl⟩

@[simp] theorem updRec_ttu (s : State) (tag : Nat) (f : TrainRec → TrainRec) :
    (s.updRec tag f).ttu = { s.ttu with table := s.ttu.table.map (fun r => if r.tag == tag then f r else r) } := rfl

@[simp] theorem updRec_rest (s : State) (tag : Nat) (f : TrainRec → TrainRec) :
    (s.updRec tag f).cfg = s.cfg ∧ (s.updRec tag f).cfl = s.cfl ∧ (s.updRec tag f).rge = s.rge ∧
      (s.updRec tag f).hoe = s.hoe ∧ (s.updRec tag f).secs = s.secs ∧ (s.updRec tag f).sar = s.sar ∧
      (s.updRec tag f).inu = s.inu ∧ (s.updRec tag f).anu = s.anu ∧ (s.updRec tag f).tiu = s.tiu ∧
      (s.updRec tag f).lbc = s.lbc ∧ (s.updRec tag f).slc = s.slc ∧ (s.updRec tag f).dck = s.dck ∧
      (s.updRec tag f).pins = s.pins ∧ (s.updRec tag f).runTime = s.runTime ∧
      (s.updRec tag f).refMoment = s.refMoment ∧ (s.updRec tag f).work = s.work ∧ (s.updRec tag f).pending = s.pending :=
    ⟨rfl, rfl, rfl, rfl, rfl, rfl, rfl, rfl, rfl, rfl, rfl, rfl, rfl, rfl, rfl, rfl, rfl⟩

@[simp] theorem updChan_tiu (s : State) (i : Nat) (f : Channel → Channel) :
    (s.updChan i f).tiu = { s.tiu with chans := s.tiu.chans.modify i f } := rfl

@[simp] theorem updChan_rest (s : State) (i : Nat) (f : Channel → Channel) :
    (s.updChan i f).cfg = s.cfg ∧ (s.updChan i f).cfl = s.cfl ∧ (s.updChan i f).ttu = s.ttu ∧
      (s.updChan i f).rge = s.rge ∧ (s.updChan i f).hoe = s.hoe ∧ (s.updChan i f).secs = s.secs ∧
      (s.updChan i f).sar = s.sar ∧ (s.updChan i f).inu = s.inu ∧ (s.updChan i f).anu = s.anu ∧
      (s.updChan i f).lbc = s.lbc ∧ (s.updChan i f).slc = s.slc ∧ (s.updChan i f).dck = s.dck ∧
      (s.updChan i f).pins = s.pins ∧ (s.updChan i f).runTime = s.runTime ∧ (s.updChan i f).refMoment = s.refMoment ∧
      (s.updChan i f).work = s.work ∧ (s.updChan i f).pending = s.pending :=
    ⟨rfl, rfl, rfl, rfl, rfl, rfl, rfl, rfl, rfl, rfl, rfl, rfl, rfl, rfl, rfl, rfl, rfl⟩

@[simp] theorem updPlace_tiu (s : State) (i : Nat) (f : CoarsePlace → CoarsePlace) :
    (s.updPlace i f).tiu = { s.tiu with coarse := s.tiu.coarse.modify i f } := rfl

@[simp] theorem updPlace_rest (s : State) (i : Nat) (f : CoarsePlace → CoarsePlace) :
    (s.updPlace i f).cfg = s.cfg ∧ (s.updPlace i f).cfl = s.cfl ∧ (s.updPlace i f).ttu = s.ttu ∧
      (s.updPlace i f).rge = s.rge ∧ (s.updPlace i f).hoe = s.hoe ∧ (s.updPlace i f).secs = s.secs ∧
      (s.updPlace i f).sar = s.sar ∧ (s.updPlace i f).inu = s.inu ∧ (s.updPlace i f).anu = s.anu ∧
      (s.updPlace i f).lbc = s.lbc ∧ (s.updPlace i f).slc = s.slc ∧ (s.updPlace i f).dck = s.dck ∧
      (s.updPlace i f).pins = s.pins ∧ (s.updPlace i f).runTime = s.runTime ∧
      (s.updPlace i f).refMoment = s.refMoment ∧ (s.updPlace i f).work = s.work ∧ (s.updPlace i f).pending = s.pending :=
    ⟨rfl, rfl, rfl, rfl, rfl, rfl, rfl, rfl, rfl, rfl, rfl, rfl, rfl, rfl, rfl, rfl, rfl⟩

@[simp] theorem updTrack_slc (s : State) (i : Nat) (f : TrackDyn → TrackDyn) :
    (s.updTrack i f).slc = { s.slc with tracks := s.slc.tracks.modify i f } := rfl

@[simp] theorem updTrack_rest (s : State) (i : Nat) (f : TrackDyn → TrackDyn) :
    (s.updTrack i f).cfg = s.cfg ∧ (s.updTrack i f).cfl = s.cfl ∧ (s.updTrack i f).ttu = s.ttu ∧
      (s.updTrack i f).rge = s.rge ∧ (s.updTrack i f).hoe = s.hoe ∧ (s.updTrack i f).secs = s.secs ∧
      (s.updTrack i f).sar = s.sar ∧ (s.updTrack i f).inu = s.inu ∧ (s.updTrack i f).anu = s.anu ∧
      (s.updTrack i f).tiu = s.tiu ∧ (s.updTrack i f).lbc = s.lbc ∧ (s.updTrack i f).dck = s.dck ∧
      (s.updTrack i f).pins = s.pins ∧ (s.updTrack i f).runTime = s.runTime ∧
      (s.updTrack i f).refMoment = s.refMoment ∧ (s.updTrack i f).work = s.work ∧ (s.updTrack i f).pending = s.pending :=
    ⟨rfl, rfl, rfl, rfl, rfl, rfl, rfl, rfl, rfl, rfl, rfl, rfl, rfl, rfl, rfl, rfl, rfl⟩

@[simp] theorem updWatch_lbc (s : State) (n : Nat) (f : Watched → Watched) :
    (s.updWatch n f).lbc = { s.lbc with watched := s.lbc.watched.map (fun w => if w.node == n then f w else w) } := rfl

@[simp] theorem updWatch_rest (s : State) (n : Nat) (f : Watched → Watched) :
    (s.updWatch n f).cfg = s.cfg ∧ (s.updWatch n f).cfl = s.cfl ∧ (s.updWatch n f).ttu = s.ttu ∧
      (s.updWatch n f).rge = s.rge ∧ (s.updWatch n f).hoe = s.hoe ∧ (s.updWatch n f).secs = s.secs ∧
      (s.updWatch n f).sar = s.sar ∧ (s.updWatch n f).inu = s.inu ∧ (s.updWatch n f).anu = s.anu ∧
      (s.updWatch n f).tiu = s.tiu ∧ (s.updWatch n f).slc = s.slc ∧ (s.updWatch n f).dck = s.dck ∧
      (s.updWatch n f).pins = s.pins ∧ (s.updWatch n f).runTime = s.runTime ∧
      (s.updWatch n f).refMoment = s.refMoment ∧ (s.updWatch n f).work = s.work ∧ (s.updWatch n f).pending = s.pending :=
    ⟨rfl, rfl, rfl, rfl, rfl, rfl, rfl, rfl, rfl, rfl, rfl, rfl, rfl, rfl, rfl, rfl, rfl⟩

@[simp] theorem updHctx_hoe (s : State) (tag : Nat) (f : HandoverCtx → HandoverCtx) :
    (s.updHctx tag f).hoe = { s.hoe with ctxs := s.hoe.ctxs.map (fun x => if x.tag == tag then f x else x) } := rfl

@[simp] theorem updHctx_rest (s : State) (tag : Nat) (f : HandoverCtx → HandoverCtx) :
    (s.updHctx tag f).cfg = s.cfg ∧ (s.updHctx tag f).cfl = s.cfl ∧ (s.updHctx tag f).ttu = s.ttu ∧
      (s.updHctx tag f).rge = s.rge ∧ (s.updHctx tag f).secs = s.secs ∧ (s.updHctx tag f).sar = s.sar ∧
      (s.updHctx tag f).inu = s.inu ∧ (s.updHctx tag f).anu = s.anu ∧ (s.updHctx tag f).tiu = s.tiu ∧
      (s.updHctx tag f).lbc = s.lbc ∧ (s.updHctx tag f).slc = s.slc ∧ (s.updHctx tag f).dck = s.dck ∧
      (s.updHctx tag f).pins = s.pins ∧ (s.updHctx tag f).runTime = s.runTime ∧
      (s.updHctx tag f).refMoment = s.refMoment ∧ (s.updHctx tag f).work = s.work ∧
      (s.updHctx tag f).pending = s.pending :=
    ⟨rfl, rfl, rfl, rfl, rfl, rfl, rfl, rfl, rfl, rfl, rfl, rfl, rfl, rfl, rfl, rfl, rfl⟩

@[simp] theorem closeHctx_hoe (s : State) (tag : Nat) :
    (s.closeHctx tag).hoe = { s.hoe with ctxs := s.hoe.ctxs.filter (fun x => x.tag != tag) } := rfl

@[simp] theorem closeHctx_rest (s : State) (tag : Nat) :
    (s.closeHctx tag).cfg = s.cfg ∧ (s.closeHctx tag).cfl = s.cfl ∧ (s.closeHctx tag).ttu = s.ttu ∧
      (s.closeHctx tag).rge = s.rge ∧ (s.closeHctx tag).secs = s.secs ∧ (s.closeHctx tag).sar = s.sar ∧
      (s.closeHctx tag).inu = s.inu ∧ (s.closeHctx tag).anu = s.anu ∧ (s.closeHctx tag).tiu = s.tiu ∧
      (s.closeHctx tag).lbc = s.lbc ∧ (s.closeHctx tag).slc = s.slc ∧ (s.closeHctx tag).dck = s.dck ∧
      (s.closeHctx tag).pins = s.pins ∧ (s.closeHctx tag).runTime = s.runTime ∧
      (s.closeHctx tag).refMoment = s.refMoment ∧ (s.closeHctx tag).work = s.work ∧
      (s.closeHctx tag).pending = s.pending :=
    ⟨rfl, rfl, rfl, rfl, rfl, rfl, rfl, rfl, rfl, rfl, rfl, rfl, rfl, rfl, rfl, rfl, rfl⟩

@[simp] theorem updInc_inu (s : State) (id : IncId) (f : Incident → Incident) :
    (s.updInc id f).inu = { s.inu with table := s.inu.table.map (fun e => if e.id == id then f e else e) } := rfl

@[simp] theorem updInc_rest (s : State) (id : IncId) (f : Incident → Incident) :
    (s.updInc id f).cfg = s.cfg ∧ (s.updInc id f).cfl = s.cfl ∧ (s.updInc id f).ttu = s.ttu ∧
      (s.updInc id f).rge = s.rge ∧ (s.updInc id f).hoe = s.hoe ∧ (s.updInc id f).secs = s.secs ∧
      (s.updInc id f).sar = s.sar ∧ (s.updInc id f).anu = s.anu ∧ (s.updInc id f).tiu = s.tiu ∧
      (s.updInc id f).lbc = s.lbc ∧ (s.updInc id f).slc = s.slc ∧ (s.updInc id f).dck = s.dck ∧
      (s.updInc id f).pins = s.pins ∧ (s.updInc id f).runTime = s.runTime ∧ (s.updInc id f).refMoment = s.refMoment ∧
      (s.updInc id f).work = s.work ∧ (s.updInc id f).pending = s.pending :=
    ⟨rfl, rfl, rfl, rfl, rfl, rfl, rfl, rfl, rfl, rfl, rfl, rfl, rfl, rfl, rfl, rfl, rfl⟩

@[simp] theorem removeInc_inu (s : State) (id : IncId) :
    (s.removeInc id).inu = { s.inu with table := s.inu.table.filter (fun e => e.id != id), dirty := s.inu.dirty.erase id } := rfl

@[simp] theorem removeInc_rest (s : State) (id : IncId) :
    (s.removeInc id).cfg = s.cfg ∧ (s.removeInc id).cfl = s.cfl ∧ (s.removeInc id).ttu = s.ttu ∧
      (s.removeInc id).rge = s.rge ∧ (s.removeInc id).hoe = s.hoe ∧ (s.removeInc id).secs = s.secs ∧
      (s.removeInc id).sar = s.sar ∧ (s.removeInc id).anu = s.anu ∧ (s.removeInc id).tiu = s.tiu ∧
      (s.removeInc id).lbc = s.lbc ∧ (s.removeInc id).slc = s.slc ∧ (s.removeInc id).dck = s.dck ∧
      (s.removeInc id).pins = s.pins ∧ (s.removeInc id).runTime = s.runTime ∧
      (s.removeInc id).refMoment = s.refMoment ∧ (s.removeInc id).work = s.work ∧ (s.removeInc id).pending = s.pending :=
    ⟨rfl, rfl, rfl, rfl, rfl, rfl, rfl, rfl, rfl, rfl, rfl, rfl, rfl, rfl, rfl, rfl, rfl⟩

@[simp] theorem withRx_lbc (s : State) (ts : List Received) :
    (s.withRx ts).lbc = { s.lbc with rx := ts } := rfl

@[simp] theorem withRx_rest (s : State) (ts : List Received) :
    (s.withRx ts).cfg = s.cfg ∧ (s.withRx ts).cfl = s.cfl ∧ (s.withRx ts).ttu = s.ttu ∧ (s.withRx ts).rge = s.rge ∧
      (s.withRx ts).hoe = s.hoe ∧ (s.withRx ts).secs = s.secs ∧ (s.withRx ts).sar = s.sar ∧
      (s.withRx ts).inu = s.inu ∧ (s.withRx ts).anu = s.anu ∧ (s.withRx ts).tiu = s.tiu ∧ (s.withRx ts).slc = s.slc ∧
      (s.withRx ts).dck = s.dck ∧ (s.withRx ts).pins = s.pins ∧ (s.withRx ts).runTime = s.runTime ∧
      (s.withRx ts).refMoment = s.refMoment ∧ (s.withRx ts).work = s.work ∧ (s.withRx ts).pending = s.pending :=
    ⟨rfl, rfl, rfl, rfl, rfl, rfl, rfl, rfl, rfl, rfl, rfl, rfl, rfl, rfl, rfl, rfl, rfl⟩

@[simp] theorem popRx_lbc (s : State) :
    (s.popRx).lbc = { s.lbc with rx := s.lbc.rx.drop 1 } := rfl

@[simp] theorem popRx_rest (s : State) :
    (s.popRx).cfg = s.cfg ∧ (s.popRx).cfl = s.cfl ∧ (s.popRx).ttu = s.ttu ∧ (s.popRx).rge = s.rge ∧
      (s.popRx).hoe = s.hoe ∧ (s.popRx).secs = s.secs ∧ (s.popRx).sar = s.sar ∧ (s.popRx).inu = s.inu ∧
      (s.popRx).anu = s.anu ∧ (s.popRx).tiu = s.tiu ∧ (s.popRx).slc = s.slc ∧ (s.popRx).dck = s.dck ∧
      (s.popRx).pins = s.pins ∧ (s.popRx).runTime = s.runTime ∧ (s.popRx).refMoment = s.refMoment ∧
      (s.popRx).work = s.work ∧ (s.popRx).pending = s.pending :=
    ⟨rfl, rfl, rfl, rfl, rfl, rfl, rfl, rfl, rfl, rfl, rfl, rfl, rfl, rfl, rfl, rfl, rfl⟩

@[simp] theorem lineBit_lbc (s : State) (m : Nat) :
    (s.lineBit m).lbc = { s.lbc with lastBit := m } := rfl

@[simp] theorem lineBit_rest (s : State) (m : Nat) :
    (s.lineBit m).cfg = s.cfg ∧ (s.lineBit m).cfl = s.cfl ∧ (s.lineBit m).ttu = s.ttu ∧ (s.lineBit m).rge = s.rge ∧
      (s.lineBit m).hoe = s.hoe ∧ (s.lineBit m).secs = s.secs ∧ (s.lineBit m).sar = s.sar ∧
      (s.lineBit m).inu = s.inu ∧ (s.lineBit m).anu = s.anu ∧ (s.lineBit m).tiu = s.tiu ∧ (s.lineBit m).slc = s.slc ∧
      (s.lineBit m).dck = s.dck ∧ (s.lineBit m).pins = s.pins ∧ (s.lineBit m).runTime = s.runTime ∧
      (s.lineBit m).refMoment = s.refMoment ∧ (s.lineBit m).work = s.work ∧ (s.lineBit m).pending = s.pending :=
    ⟨rfl, rfl, rfl, rfl, rfl, rfl, rfl, rfl, rfl, rfl, rfl, rfl, rfl, rfl, rfl, rfl, rfl⟩

@[simp] theorem stepDrops_lbc (s : State) :
    (s.stepDrops).lbc = { s.lbc with drops := stepCount s.lbc.drops } := rfl

@[simp] theorem stepDrops_rest (s : State) :
    (s.stepDrops).cfg = s.cfg ∧ (s.stepDrops).cfl = s.cfl ∧ (s.stepDrops).ttu = s.ttu ∧ (s.stepDrops).rge = s.rge ∧
      (s.stepDrops).hoe = s.hoe ∧ (s.stepDrops).secs = s.secs ∧ (s.stepDrops).sar = s.sar ∧
      (s.stepDrops).inu = s.inu ∧ (s.stepDrops).anu = s.anu ∧ (s.stepDrops).tiu = s.tiu ∧ (s.stepDrops).slc = s.slc ∧
      (s.stepDrops).dck = s.dck ∧ (s.stepDrops).pins = s.pins ∧ (s.stepDrops).runTime = s.runTime ∧
      (s.stepDrops).refMoment = s.refMoment ∧ (s.stepDrops).work = s.work ∧ (s.stepDrops).pending = s.pending :=
    ⟨rfl, rfl, rfl, rfl, rfl, rfl, rfl, rfl, rfl, rfl, rfl, rfl, rfl, rfl, rfl, rfl, rfl⟩

@[simp] theorem stepDiscards_lbc (s : State) :
    (s.stepDiscards).lbc = { s.lbc with discards := stepCount s.lbc.discards } := rfl

@[simp] theorem stepDiscards_rest (s : State) :
    (s.stepDiscards).cfg = s.cfg ∧ (s.stepDiscards).cfl = s.cfl ∧ (s.stepDiscards).ttu = s.ttu ∧
      (s.stepDiscards).rge = s.rge ∧ (s.stepDiscards).hoe = s.hoe ∧ (s.stepDiscards).secs = s.secs ∧
      (s.stepDiscards).sar = s.sar ∧ (s.stepDiscards).inu = s.inu ∧ (s.stepDiscards).anu = s.anu ∧
      (s.stepDiscards).tiu = s.tiu ∧ (s.stepDiscards).slc = s.slc ∧ (s.stepDiscards).dck = s.dck ∧
      (s.stepDiscards).pins = s.pins ∧ (s.stepDiscards).runTime = s.runTime ∧
      (s.stepDiscards).refMoment = s.refMoment ∧ (s.stepDiscards).work = s.work ∧ (s.stepDiscards).pending = s.pending :=
    ⟨rfl, rfl, rfl, rfl, rfl, rfl, rfl, rfl, rfl, rfl, rfl, rfl, rfl, rfl, rfl, rfl, rfl⟩

@[simp] theorem stepOverruns_lbc (s : State) :
    (s.stepOverruns).lbc = { s.lbc with overruns := stepCount s.lbc.overruns } := rfl

@[simp] theorem stepOverruns_rest (s : State) :
    (s.stepOverruns).cfg = s.cfg ∧ (s.stepOverruns).cfl = s.cfl ∧ (s.stepOverruns).ttu = s.ttu ∧
      (s.stepOverruns).rge = s.rge ∧ (s.stepOverruns).hoe = s.hoe ∧ (s.stepOverruns).secs = s.secs ∧
      (s.stepOverruns).sar = s.sar ∧ (s.stepOverruns).inu = s.inu ∧ (s.stepOverruns).anu = s.anu ∧
      (s.stepOverruns).tiu = s.tiu ∧ (s.stepOverruns).slc = s.slc ∧ (s.stepOverruns).dck = s.dck ∧
      (s.stepOverruns).pins = s.pins ∧ (s.stepOverruns).runTime = s.runTime ∧
      (s.stepOverruns).refMoment = s.refMoment ∧ (s.stepOverruns).work = s.work ∧ (s.stepOverruns).pending = s.pending :=
    ⟨rfl, rfl, rfl, rfl, rfl, rfl, rfl, rfl, rfl, rfl, rfl, rfl, rfl, rfl, rfl, rfl, rfl⟩

@[simp] theorem stepAnnDropped_anu (s : State) (k : Nat) :
    (s.stepAnnDropped k).anu = { s.anu with dropped := addCount s.anu.dropped k } := rfl

@[simp] theorem stepAnnDropped_rest (s : State) (k : Nat) :
    (s.stepAnnDropped k).cfg = s.cfg ∧ (s.stepAnnDropped k).cfl = s.cfl ∧ (s.stepAnnDropped k).ttu = s.ttu ∧
      (s.stepAnnDropped k).rge = s.rge ∧ (s.stepAnnDropped k).hoe = s.hoe ∧ (s.stepAnnDropped k).secs = s.secs ∧
      (s.stepAnnDropped k).sar = s.sar ∧ (s.stepAnnDropped k).inu = s.inu ∧ (s.stepAnnDropped k).tiu = s.tiu ∧
      (s.stepAnnDropped k).lbc = s.lbc ∧ (s.stepAnnDropped k).slc = s.slc ∧ (s.stepAnnDropped k).dck = s.dck ∧
      (s.stepAnnDropped k).pins = s.pins ∧ (s.stepAnnDropped k).runTime = s.runTime ∧
      (s.stepAnnDropped k).refMoment = s.refMoment ∧ (s.stepAnnDropped k).work = s.work ∧
      (s.stepAnnDropped k).pending = s.pending :=
    ⟨rfl, rfl, rfl, rfl, rfl, rfl, rfl, rfl, rfl, rfl, rfl, rfl, rfl, rfl, rfl, rfl, rfl⟩

@[simp] theorem stepMuted_anu (s : State) :
    (s.stepMuted).anu = { s.anu with muted := stepCount s.anu.muted } := rfl

@[simp] theorem stepMuted_rest (s : State) :
    (s.stepMuted).cfg = s.cfg ∧ (s.stepMuted).cfl = s.cfl ∧ (s.stepMuted).ttu = s.ttu ∧ (s.stepMuted).rge = s.rge ∧
      (s.stepMuted).hoe = s.hoe ∧ (s.stepMuted).secs = s.secs ∧ (s.stepMuted).sar = s.sar ∧
      (s.stepMuted).inu = s.inu ∧ (s.stepMuted).tiu = s.tiu ∧ (s.stepMuted).lbc = s.lbc ∧ (s.stepMuted).slc = s.slc ∧
      (s.stepMuted).dck = s.dck ∧ (s.stepMuted).pins = s.pins ∧ (s.stepMuted).runTime = s.runTime ∧
      (s.stepMuted).refMoment = s.refMoment ∧ (s.stepMuted).work = s.work ∧ (s.stepMuted).pending = s.pending :=
    ⟨rfl, rfl, rfl, rfl, rfl, rfl, rfl, rfl, rfl, rfl, rfl, rfl, rfl, rfl, rfl, rfl, rfl⟩

@[simp] theorem setPoint_slc (s : State) (n v : Nat) :
    (s.setPoint n v).slc = { s.slc with image := s.slc.image.set n { value := some v, stale := false } } := rfl

@[simp] theorem setPoint_rest (s : State) (n v : Nat) :
    (s.setPoint n v).cfg = s.cfg ∧ (s.setPoint n v).cfl = s.cfl ∧ (s.setPoint n v).ttu = s.ttu ∧
      (s.setPoint n v).rge = s.rge ∧ (s.setPoint n v).hoe = s.hoe ∧ (s.setPoint n v).secs = s.secs ∧
      (s.setPoint n v).sar = s.sar ∧ (s.setPoint n v).inu = s.inu ∧ (s.setPoint n v).anu = s.anu ∧
      (s.setPoint n v).tiu = s.tiu ∧ (s.setPoint n v).lbc = s.lbc ∧ (s.setPoint n v).dck = s.dck ∧
      (s.setPoint n v).pins = s.pins ∧ (s.setPoint n v).runTime = s.runTime ∧
      (s.setPoint n v).refMoment = s.refMoment ∧ (s.setPoint n v).work = s.work ∧ (s.setPoint n v).pending = s.pending :=
    ⟨rfl, rfl, rfl, rfl, rfl, rfl, rfl, rfl, rfl, rfl, rfl, rfl, rfl, rfl, rfl, rfl, rfl⟩

@[simp] theorem storeAnswer_dck (s : State) (i : Nat) (b : AnswerBody) :
    (s.storeAnswer i b).dck = { s.dck with lastAnswers := s.dck.lastAnswers.set i (some b) } := rfl

@[simp] theorem storeAnswer_rest (s : State) (i : Nat) (b : AnswerBody) :
    (s.storeAnswer i b).cfg = s.cfg ∧ (s.storeAnswer i b).cfl = s.cfl ∧ (s.storeAnswer i b).ttu = s.ttu ∧
      (s.storeAnswer i b).rge = s.rge ∧ (s.storeAnswer i b).hoe = s.hoe ∧ (s.storeAnswer i b).secs = s.secs ∧
      (s.storeAnswer i b).sar = s.sar ∧ (s.storeAnswer i b).inu = s.inu ∧ (s.storeAnswer i b).anu = s.anu ∧
      (s.storeAnswer i b).tiu = s.tiu ∧ (s.storeAnswer i b).lbc = s.lbc ∧ (s.storeAnswer i b).slc = s.slc ∧
      (s.storeAnswer i b).pins = s.pins ∧ (s.storeAnswer i b).runTime = s.runTime ∧
      (s.storeAnswer i b).refMoment = s.refMoment ∧ (s.storeAnswer i b).work = s.work ∧
      (s.storeAnswer i b).pending = s.pending :=
    ⟨rfl, rfl, rfl, rfl, rfl, rfl, rfl, rfl, rfl, rfl, rfl, rfl, rfl, rfl, rfl, rfl, rfl⟩

@[simp] theorem setClockTo_tiu (s : State) (t : Nat) :
    (s.setClockTo t).tiu = { s.tiu with clock := some t, overrun := false, offsets := [] } := rfl

@[simp] theorem setClockTo_rest (s : State) (t : Nat) :
    (s.setClockTo t).cfg = s.cfg ∧ (s.setClockTo t).cfl = s.cfl ∧ (s.setClockTo t).ttu = s.ttu ∧
      (s.setClockTo t).rge = s.rge ∧ (s.setClockTo t).hoe = s.hoe ∧ (s.setClockTo t).secs = s.secs ∧
      (s.setClockTo t).sar = s.sar ∧ (s.setClockTo t).inu = s.inu ∧ (s.setClockTo t).anu = s.anu ∧
      (s.setClockTo t).lbc = s.lbc ∧ (s.setClockTo t).slc = s.slc ∧ (s.setClockTo t).dck = s.dck ∧
      (s.setClockTo t).pins = s.pins ∧ (s.setClockTo t).runTime = s.runTime ∧
      (s.setClockTo t).refMoment = s.refMoment ∧ (s.setClockTo t).work = s.work ∧ (s.setClockTo t).pending = s.pending :=
    ⟨rfl, rfl, rfl, rfl, rfl, rfl, rfl, rfl, rfl, rfl, rfl, rfl, rfl, rfl, rfl, rfl, rfl⟩

@[simp] theorem clearStaging_ttu (s : State) :
    (s.clearStaging).ttu = { s.ttu with staging := [], overfull := false, invalid := false } := rfl

@[simp] theorem clearStaging_rest (s : State) :
    (s.clearStaging).cfg = s.cfg ∧ (s.clearStaging).cfl = s.cfl ∧ (s.clearStaging).rge = s.rge ∧
      (s.clearStaging).hoe = s.hoe ∧ (s.clearStaging).secs = s.secs ∧ (s.clearStaging).sar = s.sar ∧
      (s.clearStaging).inu = s.inu ∧ (s.clearStaging).anu = s.anu ∧ (s.clearStaging).tiu = s.tiu ∧
      (s.clearStaging).lbc = s.lbc ∧ (s.clearStaging).slc = s.slc ∧ (s.clearStaging).dck = s.dck ∧
      (s.clearStaging).pins = s.pins ∧ (s.clearStaging).runTime = s.runTime ∧
      (s.clearStaging).refMoment = s.refMoment ∧ (s.clearStaging).work = s.work ∧ (s.clearStaging).pending = s.pending :=
    ⟨rfl, rfl, rfl, rfl, rfl, rfl, rfl, rfl, rfl, rfl, rfl, rfl, rfl, rfl, rfl, rfl, rfl⟩

@[simp] theorem setUse_rge (s : State) (p : Nat) (u : ChannelUse) :
    (s.setUse p u).rge = { s.rge with ctxs := s.rge.ctxs.modify p (fun x => { x with use := u }) } := rfl

@[simp] theorem setUse_rest (s : State) (p : Nat) (u : ChannelUse) :
    (s.setUse p u).cfg = s.cfg ∧ (s.setUse p u).cfl = s.cfl ∧ (s.setUse p u).ttu = s.ttu ∧
      (s.setUse p u).hoe = s.hoe ∧ (s.setUse p u).secs = s.secs ∧ (s.setUse p u).sar = s.sar ∧
      (s.setUse p u).inu = s.inu ∧ (s.setUse p u).anu = s.anu ∧ (s.setUse p u).tiu = s.tiu ∧
      (s.setUse p u).lbc = s.lbc ∧ (s.setUse p u).slc = s.slc ∧ (s.setUse p u).dck = s.dck ∧
      (s.setUse p u).pins = s.pins ∧ (s.setUse p u).runTime = s.runTime ∧ (s.setUse p u).refMoment = s.refMoment ∧
      (s.setUse p u).work = s.work ∧ (s.setUse p u).pending = s.pending :=
    ⟨rfl, rfl, rfl, rfl, rfl, rfl, rfl, rfl, rfl, rfl, rfl, rfl, rfl, rfl, rfl, rfl, rfl⟩

@[simp] theorem displaceLast_anu (s : State) :
    s.displaceLast.anu =
      { s.anu with queue := s.anu.queue.dropLast, dropped := addCount s.anu.dropped 1 } := rfl

@[simp] theorem displaceLast_rest (s : State) :
    (s.displaceLast).cfg = s.cfg ∧ (s.displaceLast).cfl = s.cfl ∧ (s.displaceLast).ttu = s.ttu ∧
      (s.displaceLast).rge = s.rge ∧ (s.displaceLast).hoe = s.hoe ∧ (s.displaceLast).secs = s.secs ∧
      (s.displaceLast).sar = s.sar ∧ (s.displaceLast).inu = s.inu ∧ (s.displaceLast).tiu = s.tiu ∧
      (s.displaceLast).lbc = s.lbc ∧ (s.displaceLast).slc = s.slc ∧ (s.displaceLast).dck = s.dck ∧
      (s.displaceLast).pins = s.pins ∧ (s.displaceLast).runTime = s.runTime ∧
      (s.displaceLast).refMoment = s.refMoment ∧ (s.displaceLast).work = s.work ∧ (s.displaceLast).pending = s.pending :=
    ⟨rfl, rfl, rfl, rfl, rfl, rfl, rfl, rfl, rfl, rfl, rfl, rfl, rfl, rfl, rfl, rfl, rfl⟩

@[simp] theorem putRequest_anu (s : State) (r : Request) :
    (s.putRequest r).anu = { s.anu with
      queue := insertRequest { r with joined := s.anu.joins } s.anu.queue
      joins := s.anu.joins + 1 } := rfl

@[simp] theorem putRequest_rest (s : State) (r : Request) :
    (s.putRequest r).cfg = s.cfg ∧ (s.putRequest r).cfl = s.cfl ∧ (s.putRequest r).ttu = s.ttu ∧
      (s.putRequest r).rge = s.rge ∧ (s.putRequest r).hoe = s.hoe ∧ (s.putRequest r).secs = s.secs ∧
      (s.putRequest r).sar = s.sar ∧ (s.putRequest r).inu = s.inu ∧ (s.putRequest r).tiu = s.tiu ∧
      (s.putRequest r).lbc = s.lbc ∧ (s.putRequest r).slc = s.slc ∧ (s.putRequest r).dck = s.dck ∧
      (s.putRequest r).pins = s.pins ∧ (s.putRequest r).runTime = s.runTime ∧
      (s.putRequest r).refMoment = s.refMoment ∧ (s.putRequest r).work = s.work ∧ (s.putRequest r).pending = s.pending :=
    ⟨rfl, rfl, rfl, rfl, rfl, rfl, rfl, rfl, rfl, rfl, rfl, rfl, rfl, rfl, rfl, rfl, rfl⟩

@[simp] theorem joinNew_number (s : State) (q : AnnReq) :
    (s.joinNew q).anu.queue = insertRequest
      { q.toRequest (freshNumber s.annNumbers 13 s.anu.numCtr) s.runTime with joined := s.anu.joins } s.anu.queue := rfl

@[simp] theorem joinNew_rest (s : State) (q : AnnReq) :
    (s.joinNew q).cfg = s.cfg ∧ (s.joinNew q).cfl = s.cfl ∧ (s.joinNew q).ttu = s.ttu ∧ (s.joinNew q).rge = s.rge ∧
      (s.joinNew q).hoe = s.hoe ∧ (s.joinNew q).secs = s.secs ∧ (s.joinNew q).sar = s.sar ∧
      (s.joinNew q).inu = s.inu ∧ (s.joinNew q).tiu = s.tiu ∧ (s.joinNew q).lbc = s.lbc ∧ (s.joinNew q).slc = s.slc ∧
      (s.joinNew q).dck = s.dck ∧ (s.joinNew q).pins = s.pins ∧ (s.joinNew q).runTime = s.runTime ∧
      (s.joinNew q).refMoment = s.refMoment ∧ (s.joinNew q).work = s.work ∧ (s.joinNew q).pending = s.pending :=
    ⟨rfl, rfl, rfl, rfl, rfl, rfl, rfl, rfl, rfl, rfl, rfl, rfl, rfl, rfl, rfl, rfl, rfl⟩

@[simp] theorem cutShort_work (s : State) : s.cutShort.work = [] ∧ s.cutShort.inu.level = s.levelNow ∧
    s.cutShort.inu.table = s.inu.table ∧ s.cutShort.pins.alert = s.alertAt s.levelNow := ⟨rfl, rfl, rfl, rfl⟩

@[simp] theorem cutShort_rest (s : State) :
    (s.cutShort).cfg = s.cfg ∧ (s.cutShort).cfl = s.cfl ∧ (s.cutShort).ttu = s.ttu ∧ (s.cutShort).rge = s.rge ∧
      (s.cutShort).hoe = s.hoe ∧ (s.cutShort).secs = s.secs ∧ (s.cutShort).sar = s.sar ∧ (s.cutShort).anu = s.anu ∧
      (s.cutShort).tiu = s.tiu ∧ (s.cutShort).lbc = s.lbc ∧ (s.cutShort).slc = s.slc ∧ (s.cutShort).dck = s.dck ∧
      (s.cutShort).runTime = s.runTime ∧ (s.cutShort).refMoment = s.refMoment ∧ (s.cutShort).pending = s.pending :=
    ⟨rfl, rfl, rfl, rfl, rfl, rfl, rfl, rfl, rfl, rfl, rfl, rfl, rfl, rfl, rfl⟩

@[simp] theorem beginSending_lbc (s : State) (c : TelegramClass) (m : Nat) :
    (s.beginSending c m).lbc.sending = some (c, false) ∧ (s.beginSending c m).lbc.startedAt = m ∧
      (s.beginSending c m).pins.busDe = true := ⟨rfl, rfl, rfl⟩

@[simp] theorem beginSending_rest (s : State) (c : TelegramClass) (m : Nat) :
    (s.beginSending c m).cfg = s.cfg ∧ (s.beginSending c m).cfl = s.cfl ∧ (s.beginSending c m).ttu = s.ttu ∧
      (s.beginSending c m).rge = s.rge ∧ (s.beginSending c m).hoe = s.hoe ∧ (s.beginSending c m).secs = s.secs ∧
      (s.beginSending c m).sar = s.sar ∧ (s.beginSending c m).inu = s.inu ∧ (s.beginSending c m).anu = s.anu ∧
      (s.beginSending c m).tiu = s.tiu ∧ (s.beginSending c m).slc = s.slc ∧ (s.beginSending c m).dck = s.dck ∧
      (s.beginSending c m).runTime = s.runTime ∧ (s.beginSending c m).refMoment = s.refMoment ∧
      (s.beginSending c m).work = s.work ∧ (s.beginSending c m).pending = s.pending :=
    ⟨rfl, rfl, rfl, rfl, rfl, rfl, rfl, rfl, rfl, rfl, rfl, rfl, rfl, rfl, rfl, rfl⟩

@[simp] theorem received_parts (s : State) (t : Telegram) (bs : Bytes) :
    (s.received t bs).tg = t ∧ (s.received t bs).bytes = bs ∧ (s.received t bs).time = s.runTime ∧
      (s.received t bs).stamp = s.tiu.clock := ⟨rfl, rfl, rfl, rfl⟩

@[simp] theorem setRoute_asker (s : State) (p : Nat) (x : Route) :
    (s.setRoute p x).sar = { s.sar with askers := s.sar.askers.modify p (fun r => { r with route := x }) } := rfl

@[simp] theorem setRoute_rest (s : State) (p : Nat) (x : Route) :
    (s.setRoute p x).cfg = s.cfg ∧ (s.setRoute p x).cfl = s.cfl ∧ (s.setRoute p x).ttu = s.ttu ∧
      (s.setRoute p x).rge = s.rge ∧ (s.setRoute p x).hoe = s.hoe ∧ (s.setRoute p x).secs = s.secs ∧
      (s.setRoute p x).inu = s.inu ∧ (s.setRoute p x).anu = s.anu ∧ (s.setRoute p x).tiu = s.tiu ∧
      (s.setRoute p x).lbc = s.lbc ∧ (s.setRoute p x).slc = s.slc ∧ (s.setRoute p x).dck = s.dck ∧
      (s.setRoute p x).pins = s.pins ∧ (s.setRoute p x).runTime = s.runTime ∧
      (s.setRoute p x).refMoment = s.refMoment ∧ (s.setRoute p x).work = s.work ∧ (s.setRoute p x).pending = s.pending :=
    ⟨rfl, rfl, rfl, rfl, rfl, rfl, rfl, rfl, rfl, rfl, rfl, rfl, rfl, rfl, rfl, rfl, rfl⟩

@[simp] theorem updHoeDir_rest (s : State) (d : Dir) (f : HoeDir → HoeDir) :
    (s.updHoeDir d f).cfg = s.cfg ∧ (s.updHoeDir d f).cfl = s.cfl ∧ (s.updHoeDir d f).ttu = s.ttu ∧
      (s.updHoeDir d f).rge = s.rge ∧ (s.updHoeDir d f).secs = s.secs ∧ (s.updHoeDir d f).sar = s.sar ∧
      (s.updHoeDir d f).inu = s.inu ∧ (s.updHoeDir d f).anu = s.anu ∧ (s.updHoeDir d f).tiu = s.tiu ∧
      (s.updHoeDir d f).lbc = s.lbc ∧ (s.updHoeDir d f).slc = s.slc ∧ (s.updHoeDir d f).dck = s.dck ∧
      (s.updHoeDir d f).pins = s.pins ∧ (s.updHoeDir d f).runTime = s.runTime ∧
      (s.updHoeDir d f).refMoment = s.refMoment ∧ (s.updHoeDir d f).work = s.work ∧
      (s.updHoeDir d f).pending = s.pending := by
  cases d <;> exact ⟨rfl, rfl, rfl, rfl, rfl, rfl, rfl, rfl, rfl, rfl, rfl, rfl, rfl, rfl, rfl, rfl, rfl⟩

@[simp] theorem updHoeDir_same (s : State) (d : Dir) (f : HoeDir → HoeDir) :
    (s.updHoeDir d f).hoeDir d = f (s.hoeDir d) := by
  cases d <;> rfl

@[simp] theorem updHoeDir_other (s : State) (d : Dir) (f : HoeDir → HoeDir) :
    (s.updHoeDir d f).hoeDir d.opp = s.hoeDir d.opp := by cases d <;> rfl

end Sys2Proof.Machine
end

