-- ==== Sys2Proof/Laws/Telegrams.lean ====
section
/-! SUPPORT. Each part of a telegram, written and read again: the readers of 12.2 give back what the writers wrote. -/

namespace Sys2Proof.Machine

open Sys2Proof

/-- A reader that answers hands the bytes left to the next. -/
theorem readThen {α β : Type} {r : Reader α} {f : α → Reader β} {bs rest : Bytes} {x : α} {y : Option (β × Bytes)}
    (h : r bs = some (x, rest)) (g : f x rest = y) : (r >>= f) bs = y := by
  simp only [bind, StateT.bind, h, Option.bind_some]
  exact g

/-- A presence byte of seven bits reads back bit by bit. -/
theorem bits_read (a b c d e f g : Bool) :
    let n := bitAt 0 a + bitAt 1 b + bitAt 2 c + bitAt 3 d + bitAt 4 e + bitAt 5 f + bitAt 6 g
    n < 256 ∧ bitOf n 0 = a ∧ bitOf n 1 = b ∧ bitOf n 2 = c ∧ bitOf n 3 = d ∧ bitOf n 4 = e ∧ bitOf n 5 = f ∧ bitOf n 6 = g := by
  revert a b c d e f g; decide

/-- An optional field reads back when its presence bit tells whether it is there. -/
theorem readWhen_opt {α : Type} (o : Option α) (p : Bool) (w : Nat) (r : Reader α) (enc b : Bytes) (hp : p = o.isSome)
    (hl : enc.length = w) (hr : ∀ x, o = some x → r (enc ++ b) = some (x, b)) :
    readWhen p w r (enc ++ b) = some (o, b) := by
  subst hp
  cases o with
  | none => simp [readWhen, bind, StateT.bind, takeBytes_of_length _ _ _ hl, pure, StateT.pure]
  | some x => simp [readWhen, bind, StateT.bind, hr x rfl, pure, StateT.pure]

/-- A list of entries reads back when each entry does. -/
theorem readMany_map {α : Type} (r : Reader α) (enc : α → Bytes) (l : List α) (b : Bytes)
    (h : ∀ x ∈ l, ∀ b, r (enc x ++ b) = some (x, b)) : readMany r l.length ((l.map enc).flatten ++ b) = some (l, b) :=
        by
  induction l with
  | nil => rfl
  | cons x xs ih =>
    have h1 := h x (by simp)
    have h2 := ih (fun y hy => h y (by simp [hy]))
    simp [readMany, bind, StateT.bind, h1, h2, pure, StateT.pure]

theorem read1_lt (n : Nat) (b : Bytes) (h : n ≤ 255) : read1 (byteOf n :: b) = some (n, b) := by
  rw [read1_byteOf, Nat.mod_eq_of_lt (by omega)]

theorem read2_lt (n : Nat) (b : Bytes) (h : n ≤ 65535) : read2 (bytesOf 2 n ++ b) = some (n, b) := by
  rw [read2_bytesOf, Nat.mod_eq_of_lt (by omega)]

theorem readDir_code (d : Dir) (b : Bytes) : readDir (byteOf (dirCode d) :: b) = some (d, b) := by
  cases d <;> simp [readDir, bind, StateT.bind, read1_byteOf, dirCode, pure, StateT.pure]

theorem packRun_length (n : Nat) : (packRun n).length = 2 := packDigits_length _ _ _

theorem packTime_length (n : Nat) : (packTime n).length = 4 := packDigits_length _ _ _

theorem readId_emit (i : IncId) (b : Bytes) (h : i.fits) : readId (emitId i ++ b) = some (i, b) := by
  obtain ⟨h1, h2⟩ := h
  simp [readId, emitId, bind, StateT.bind, readIn_byteOf 0 32 i.node _ (by omega) (by omega) h1,
    readIn_bytesOf 2 0 4095 i.serial _ (by omega) (by omega) h2, pure, StateT.pure]

theorem readSpan_emit (x : Span) (b : Bytes) (h : Span.fits x) : readSpan
    (bytesOf 2 x.fromEnd ++ (bytesOf 2 x.toEnd ++ b)) = some (x, b) := by
  obtain ⟨h1, h2⟩ := h
  simp [readSpan, bind, StateT.bind, read2_lt, h1, h2, pure, StateT.pure]

theorem readTimeOpt (o : Option Nat) (p : Bool) (b : Bytes) (hp : p = o.isSome) (h : optAll o (· ≤ serviceMax)) :
    readWhen p 4 readTime (packTimeOpt o ++ b) = some (o, b) :=
  readWhen_opt o p 4 _ _ b hp (packTime_length _) (by intro x hx; subst hx; exact readTime_packTime x b (h x rfl))

theorem readByteOpt (o : Option Nat) (p : Bool) (b : Bytes) (hp : p = o.isSome) (hi : Nat) (hh : hi ≤ 255)
    (h : optAll o (· ≤ hi)) :
    readWhen p 1 (readIn 1 0 hi) (byteOf (o.getD 0) :: b) = some (o, b) :=
  readWhen_opt o p 1 _ [byteOf (o.getD 0)] b hp rfl (by intro x hx; subst hx; have := h x rfl; exact readIn_byteOf 0 hi x b (by simp at this; omega) (by omega) this)

theorem readByteOpt1 (o : Option Nat) (p : Bool) (b : Bytes) (hp : p = o.isSome) (h : optAll o (· ≤ 255)) :
    readWhen p 1 read1 (byteOf (o.getD 0) :: b) = some (o, b) :=
  readWhen_opt o p 1 _ [byteOf (o.getD 0)] b hp rfl (by intro x hx; subst hx; exact read1_lt x b (h x rfl))

theorem readRunOpt (o : Option Nat) (p : Bool) (b : Bytes) (hp : p = o.isSome) (h : optAll o (· ≤ 999)) :
    readWhen p 2 readRun (packRun (o.getD 0) ++ b) = some (o, b) :=
  readWhen_opt o p 2 _ _ b hp (packRun_length _) (by intro x hx; subst hx; exact readRun_packRun x b (h x rfl))

theorem readSpanOpt (o : Option Span) (p : Bool) (b : Bytes) (hp : p = o.isSome) (h : optAll o Span.fits) :
    readWhen p 4 readSpan (emitSpan o ++ b) = some (o, b) :=
  readWhen_opt o p 4 _ _ b hp (by simp [emitSpan, bytesOf_length]) (by
    intro x hx; subst hx; simp only [emitSpan, Option.map_some, Option.getD_some,
        List.append_assoc]; exact readSpan_emit x b (h x rfl))

theorem readLoc_emit (l : Loc) (bits g : Nat) (b : Bytes) (hg : g ≤ 255) (h : l.fits g) (h0 : bitOf bits 0 =
    l.platform.isSome)
    (h1 : bitOf bits 1 = l.sec.isSome) (h2 : bitOf bits 2 = l.run.isSome) (h3 : bitOf bits 3 = l.point.isSome) :
    readLoc bits g (emitLoc l ++ b) = some (l, b) := by
  obtain ⟨f0, f1, f2, f3⟩ := h
  simp [readLoc, emitLoc, bind, StateT.bind, readByteOpt _ _ _ h0 g hg f0, readByteOpt1 _ _ _ h1 f1,
      readRunOpt _ _ _ h2 f2,
    readByteOpt _ _ _ h3 63 (by omega) f3, pure, StateT.pure]

theorem incState_code (s : IncState) : incStateCode s ≤ 255 ∧ incStateOf (incStateCode s) = some s :=
    by cases s <;> decide

theorem kind_code (k : IncKind) : k.code ≤ 255 ∧ IncKind.ofCode k.code = some k := by cases k <;> decide

theorem sec_code (k : Option SectionState) : secStateCode k ≤ 255 ∧ secStateOf (secStateCode k) = some k := by
  cases k with | none => decide | some x => cases x <;> decide

theorem plan_code (k : PlanResult) : planResultCode k ≤ 255 ∧ planResultOf (planResultCode k) = some k :=
    by cases k <;> decide

theorem ans_code (k : AnswerResult) : answerCode k ≤ 255 ∧ answerOf (answerCode k) = some k := by cases k <;> decide

theorem eff_code (e : Effects) : effectsCode e ≤ 255 ∧ effectsOf (effectsCode e) = e := by
  obtain ⟨a, b, c⟩ := e; revert a b c; decide

theorem dest_class (d p : Nat) (h1 : d ≤ 31) (h2 : p ≤ 3) : destClass d p ≤ 255 ∧ destClass d p % 32 = d ∧
    destClass d p / 32 % 4 = p := by
  simp only [destClass]; omega

theorem readIncident_emit (b : IncidentBody) (r : Bytes) (h : (Body.incident b).fits) :
    readIncident (emitIncident b ++ r) = some (.incident b, r) := by
  obtain ⟨hid, hsev, hloc, hcov, hrai, hack⟩ := h
  have hb :=
      bits_read b.loc.platform.isSome b.loc.sec.isSome b.loc.run.isSome b.loc.point.isSome b.cover.isSome b.raised.isSome b.ackBy.isSome
  obtain ⟨g, g0, g1, g2, g3, g4, g5, g6⟩ := hb
  obtain ⟨k1, k2⟩ := kind_code b.kind
  obtain ⟨s1, s2⟩ := incState_code b.state
  obtain ⟨e1, e2⟩ := eff_code b.effects
  simp only [emitIncident, List.append_assoc, List.cons_append, List.nil_append, locBits]
  generalize bitAt 0 b.loc.platform.isSome + bitAt 1 b.loc.sec.isSome + bitAt 2 b.loc.run.isSome +
      bitAt 3 b.loc.point.isSome + bitAt 4 b.cover.isSome + bitAt 5 b.raised.isSome + bitAt 6 b.ackBy.isSome = n at *
  unfold readIncident
  refine readThen (readId_emit _ _ hid) ?_
  refine readThen (read1_lt _ _ k1) ?_
  refine readThen (readIn_byteOf 0 7 _ _ (by omega) (by omega) hsev) ?_
  refine readThen (read1_lt _ _ s1) ?_
  refine readThen (read1_lt n _ (by omega)) ?_
  refine readThen (read1_lt _ _ e1) ?_
  refine readThen (readLoc_emit b.loc n 3 _ (by omega) hloc g0 g1 g2 g3) ?_
  refine readThen (readSpanOpt _ _ _ g4 hcov) ?_
  refine readThen (readTimeOpt _ _ _ g5 hrai) ?_
  refine readThen (readByteOpt _ _ _ g6 32 (by omega) hack) ?_
  simp only [k2, s2, e2]
  rfl

theorem readStatusDir_emit (d : StatusDir) (b : Bytes) (h : d.fits) : readStatusDir (emitStatusDir d ++ b) = some (d,
    b) := by
  obtain ⟨h1, h2, h3⟩ := h
  obtain ⟨g, g0, g1, g2, _⟩ :=
      bits_read d.lastSend.isSome d.lastExpected.isSome d.prediction.isSome false false false false
  have hs : ∀ o : Option Nat, optAll o (· ≤ 255) → o.getD 0 ≤ 255 ∧ (if o.isSome =
      true then some (o.getD 0) else none) = o := by
    intro o ho; cases o with | none => simp | some x => simpa using ho x rfl
  have hp : ∀ n, bitOf n 2 = d.prediction.isSome → readWhen (bitOf n 2) 10 (do
    let run ← readRun
    let origin ← readTime
    let departure ← readTime
    pure ({ run := run, origin := origin, departure := departure } : Prediction)) ((packRun ((d.prediction.map (·.run)).getD 0) ++ packTimeOpt (d.prediction.map (·.origin)) ++ packTimeOpt (d.prediction.map (·.departure))) ++ b) = some (d.prediction, b) := by
    intro n hn
    apply readWhen_opt _ _ _ _ _ _ hn
    · simp [packRun_length, packTimeOpt, packTime_length]
    · intro x hx
      obtain ⟨a1, a2, a3⟩ := h3 x hx
      simp [hx, bind, StateT.bind, readRun_packRun _ _ a1, packTimeOpt, readTime_packTime _ _ a2,
          readTime_packTime _ _ a3, pure, StateT.pure]
  have hn : bitAt 0 d.lastSend.isSome + bitAt 1 d.lastExpected.isSome + bitAt 2 d.prediction.isSome + bitAt 3 false +
      bitAt 4 false + bitAt 5 false + bitAt 6 false = bitAt 0 d.lastSend.isSome + bitAt 1 d.lastExpected.isSome + bitAt 2 d.prediction.isSome := rfl
  rw [hn] at g g0 g1 g2
  simp only [emitStatusDir, List.cons_append, List.append_assoc] at *
  generalize bitAt 0 d.lastSend.isSome + bitAt 1 d.lastExpected.isSome + bitAt 2 d.prediction.isSome = n at *
  have hp' := hp n g2
  rw [g2] at hp'
  simp [readStatusDir, bind, StateT.bind, read1_lt n _ (by omega), read1_lt _ _ (hs _ h1).1, read1_lt _ _ (hs _ h2).1,
      g0, g1, g2]
  simp [bind] at hp'
  simp only [hp', (hs _ h1).2, (hs _ h2).2]
  simp [pure, StateT.pure]

theorem readSection_emit (e : SectionEntry) (b : Bytes) (h : e.id ≤ 255 ∧ optAll e.im (· ≤ 16000)) : readSection
    (emitSection e ++ b) = some (e, b) := by
  obtain ⟨h1, h2⟩ := h
  obtain ⟨g, g0, g1, _⟩ := bits_read e.stale e.im.isSome false false false false false
  have hn : bitAt 0 e.stale + bitAt 1 e.im.isSome + bitAt 2 false + bitAt 3 false + bitAt 4 false + bitAt 5 false +
      bitAt 6 false = bitAt 0 e.stale + bitAt 1 e.im.isSome := rfl
  rw [hn] at g g0 g1
  obtain ⟨s1, s2⟩ := sec_code e.state
  simp only [emitSection, List.cons_append]
  generalize bitAt 0 e.stale + bitAt 1 e.im.isSome = n at *
  have hw : readWhen (bitOf n 1) 2 (readIn 2 0 16000) (bytesOf 2 (e.im.getD 0) ++ b) = some (e.im, b) := by
    apply readWhen_opt _ _ _ _ _ _ g1 (bytesOf_length _ _)
    intro x hx
    have := h2 x hx
    simp only [hx]
    exact readIn_bytesOf 2 0 16000 x b (by simp at this; omega) (by omega) this
  simp only [g1] at hw
  simp [readSection, bind, StateT.bind, read1_lt _ _ h1, read1_lt n _ (by omega), read1_lt _ _ s1, g0, g1, hw, s2,
      pure, StateT.pure]

theorem readStatus_emit (x : StatusBody) (r : Bytes) (h : x.fits) : readStatus (emitStatus x ++ r) = some (.status x,
    r) := by
  obtain ⟨h1, h2, h3, h4, h5, h6, h7, h8, h9, h10, h11⟩ := h
  obtain ⟨g, g0, g1, g2, _⟩ := bits_read x.clock.isSome x.overrun x.console false false false false
  have hn : bitAt 0 x.clock.isSome + bitAt 1 x.overrun + bitAt 2 x.console + bitAt 3 false + bitAt 4 false +
      bitAt 5 false + bitAt 6 false = bitAt 0 x.clock.isSome + bitAt 1 x.overrun + bitAt 2 x.console := rfl
  rw [hn] at g g0 g1 g2
  obtain ⟨s1, s2⟩ := plan_code x.plan
  simp only [emitStatus, List.cons_append, List.append_assoc, List.nil_append]
  generalize bitAt 0 x.clock.isSome + bitAt 1 x.overrun + bitAt 2 x.console = n at *
  have hm := readMany_map readSection emitSection x.sections r (fun e he b => readSection_emit e b (h11 e he))
  unfold readStatus
  refine readThen (read1_lt n _ (by omega)) ?_
  refine readThen (readIn_byteOf 0 7 _ _ (by omega) (by omega) h1) ?_
  refine readThen (readTimeOpt _ _ _ g0 h2) ?_
  refine readThen (readStatusDir_emit _ _ h3) ?_
  refine readThen (readStatusDir_emit _ _ h4) ?_
  refine readThen (read1_lt _ _ s1) ?_
  refine readThen (read2_lt _ _ h5) ?_
  refine readThen (read2_lt _ _ h6) ?_
  refine readThen (read2_lt _ _ h7) ?_
  refine readThen (read2_lt _ _ h8) ?_
  refine readThen (read2_lt _ _ h9) ?_
  refine readThen (readIn_byteOf 0 4 _ _ (by omega) (by omega) h10) ?_
  refine readThen hm ?_
  simp only [s2, g1, g2]
  rfl

theorem readCarried_emit (dir : Option Dir) (w : Bool) (e : SentEntry) (b : Bytes) (h : e.fits)
    (hd : (w = true ∧ dir = none) ∨ (w = false ∧ dir = some e.carried.dir)) :
        readCarried dir (emitCarried w e ++ b) = some (e, b) := by
  obtain ⟨h1, h2, h3, h4, h5, h6, h7⟩ := h
  obtain ⟨g, g0, g1, g2, g3, g4, _⟩ :=
      bits_read e.carried.lateness.isSome e.carried.incRef.isSome e.carried.consoleHold e.carried.withdraw e.carried.departedWithout false false
  have hn : ∀ n, n + bitAt 5 false + bitAt 6 false = n := fun n => rfl
  rw [hn] at g g0 g1 g2 g3 g4
  obtain ⟨c1, c2, c3⟩ := dest_class _ _ h3 h4
  have hl : ∀ n b, bitOf n 0 =
      e.carried.lateness.isSome → readWhen (bitOf n 0) 2 readLateness (packLateness (e.carried.lateness.getD 0) ++ b) = some (e.carried.lateness, b) := by
    intro n b hb
    apply readWhen_opt _ _ _ _ (packLateness _) _ hb (packDigits_length 3 _ _)
    intro x hx; simp only [hx]; exact readLateness_packLateness x b (h5 x hx).1 (h5 x hx).2
  have hi : ∀ n b, bitOf n 1 =
      e.carried.incRef.isSome → readWhen (bitOf n 1) 3 readId ((byteOf ((e.carried.incRef.map (·.node)).getD 0) :: bytesOf 2 ((e.carried.incRef.map (·.serial)).getD 0)) ++ b) = some (e.carried.incRef, b) := by
    intro n b hb
    apply readWhen_opt _ _ _ _ _ _ hb (by simp [bytesOf_length])
    intro x hx; simp only [hx]; exact readId_emit x b (h7 x hx)
  simp only [emitCarried, List.append_assoc, List.cons_append, List.nil_append]
  generalize bitAt 0 e.carried.lateness.isSome + bitAt 1 e.carried.incRef.isSome + bitAt 2 e.carried.consoleHold +
      bitAt 3 e.carried.withdraw + bitAt 4 e.carried.departedWithout = n at *
  have hl' := fun b => hl n b g0
  have hi' := fun b => hi n b g1
  simp only [List.cons_append] at hi'
  simp only [g0] at hl'
  simp only [g1] at hi'
  rcases hd with ⟨rfl, rfl⟩ | ⟨rfl, rfl⟩ <;>
  simp [readCarried, bind, StateT.bind, readRun_packRun _ _ h1, readDir_code, readTime_packTime _ _ h2,
      read1_lt _ _ c1, read1_lt n _ (by omega), g0, g1, hl', read1_lt _ _ h6, hi', c2, c3, g2, g3, g4, pure, StateT.pure]

theorem readDirPlatform_emit (o : Option Nat) (b : Bytes) (h : optAll o (· ≤ 255)) : readDirPlatform
    (emitPlatform o ++ b) = some (o, b) := by
  have e : ∀ p : Bool, bitOf (bitAt 0 p) 0 = p ∧ bitAt 0 p ≤ 255 := by decide
  have hw := readByteOpt1 o (bitOf (bitAt 0 o.isSome) 0) b (e _).1 h
  rw [(e _).1] at hw
  simp [readDirPlatform, emitPlatform, bind, StateT.bind, read1_lt _ _ (e _).2, (e _).1, hw]

theorem readSlots_emit (l : List Nat) (b : Bytes) (hl : l.length = 4) (h : ∀ v ∈ l, v ≤ 9999) : readSlots
    (emitSlots l ++ b) = some (l, b) := by
  have := readMany_map (readIn 2 0 9999) (bytesOf 2) l b (fun x hx b => readIn_bytesOf 2 0 9999 x b (by have := h x hx; simp; omega) (by omega) (h x hx))
  rw [hl] at this
  exact this

theorem zones_code (z : BitVec 5) : z.toNat ≤ 255 ∧ BitVec.ofNat 5 z.toNat = z := by
  have := z.isLt
  exact ⟨by omega, by simp⟩

theorem readEntry_emit (e : PlanEntry) (b : Bytes) (h : e.fits) : readEntry (emitEntry e ++ b) = some (e, b) := by
  obtain ⟨h1, h2, h3, h4, h5⟩ := h
  obtain ⟨c1, c2, c3⟩ := dest_class _ _ h4 h5
  simp [readEntry, emitEntry, bind, StateT.bind, readRun_packRun _ _ h1, read1_lt _ _ h2, readTime_packTime _ _ h3,
      read1_lt _ _ c1, c2, c3, pure, StateT.pure]

theorem readTimeAny_packTime (n : Nat) (b : Bytes) (h : n ≤ 9999999) : readTimeAny (packTime n ++ b) = some (n, b) := by
    have ht : takeBytes 4 (packTime n ++ b) = some (packTime n, b) :=
      takeBytes_of_length _ _ 4 (packDigits_length 7 n false)
    have hu : unpackDigits 7 (packTime n) = some (false, n) := unpackDigits_packDigits 3 n false (by omega)
    simp [readTimeAny, bind, StateT.bind, ht, hu, pure, StateT.pure]

/-- The parameters of every directive read back (12.2). -/
theorem readParams_emit (d : Directive) (h : d.fits) : readParams d.code (emitParams d) = some (d, []) := by
  have ap : ∀ l : Bytes, l = l ++ [] := by simp
  cases d with
  | ackIncident i =>
    have hi := readId_emit i [] h
    rw [List.append_nil] at hi
    simp [readParams, emitParams, Directive.code, bind, StateT.bind, hi, pure, StateT.pure]
  | clearIncident i =>
    have hi := readId_emit i [] h
    rw [List.append_nil] at hi
    simp [readParams, emitParams, Directive.code, bind, StateT.bind, hi, pure, StateT.pure]
  | holdTrain r p => rw [ap (emitParams _)]; simp only [emitParams, List.append_assoc]; simp [readParams,
      readRunPlatform, Directive.code, bind, StateT.bind, readRun_packRun _ _ h.1, pure, StateT.pure]; rw [ap (emitPlatform p), readDirPlatform_emit p _ h.2]; rfl
  | releaseTrain r p => rw [ap (emitParams _)]; simp only [emitParams, List.append_assoc]; simp [readParams,
      readRunPlatform, Directive.code, bind, StateT.bind, readRun_packRun _ _ h.1, pure, StateT.pure]; rw [ap (emitPlatform p), readDirPlatform_emit p _ h.2]; rfl
  | withdrawRun r p => rw [ap (emitParams _)]; simp only [emitParams, List.append_assoc]; simp [readParams,
      readRunPlatform, Directive.code, bind, StateT.bind, readRun_packRun _ _ h.1, pure, StateT.pure]; rw [ap (emitPlatform p), readDirPlatform_emit p _ h.2]; rfl
  | announce a =>
    obtain ⟨h1, h2, h3, h4, h5, h6⟩ := h
    obtain ⟨z1, z2⟩ := zones_code a.zones
    rw [ap (emitParams _)]; simp only [emitParams, List.append_assoc, List.cons_append, List.nil_append]
    simp [-List.append_nil, readParams, readAnnounce, Directive.code, bind, StateT.bind, read1_lt _ _ h1,
        read1_lt _ _ h2, read1_lt _ _ z1, readSlots_emit _ _ h3 h4, read1_lt _ _ h5, read2_lt _ _ h6, z2, pure, StateT.pure]
  | cancelAnnounce t l z =>
    obtain ⟨h1, h3, h4⟩ := h
    obtain ⟨z1, z2⟩ := zones_code z
    rw [ap (emitParams _)]; simp only [emitParams, List.append_assoc, List.cons_append, List.nil_append]
    simp [-List.append_nil, readParams, readCancel, Directive.code, bind, StateT.bind, read1_lt _ _ h1,
        read1_lt _ _ z1, readSlots_emit _ _ h3 h4, z2, pure, StateT.pure]
  | declareIncident d =>
    obtain ⟨h1, h2, h3⟩ := h
    obtain ⟨e1, e2⟩ := eff_code d.effects
    obtain ⟨g, g0, g1, g2, g3, g4, _⟩ :=
        bits_read d.loc.platform.isSome d.loc.sec.isSome d.loc.run.isSome d.loc.point.isSome d.cover.isSome false false
    have hn : ∀ n, n + bitAt 5 false + bitAt 6 false = n := fun n => rfl
    rw [hn] at g g0 g1 g2 g3 g4
    rw [ap (emitParams _)]; simp only [emitParams, List.append_assoc, List.cons_append, List.nil_append, locBits]
    generalize bitAt 0 d.loc.platform.isSome + bitAt 1 d.loc.sec.isSome + bitAt 2 d.loc.run.isSome +
        bitAt 3 d.loc.point.isSome + bitAt 4 d.cover.isSome = n at *
    have hs := readSpanOpt d.cover (bitOf n 4) [] g4 h3
    rw [g4] at hs
    simp [-List.append_nil, readParams, readDeclare, Directive.code, bind, StateT.bind, read1_lt _ _ h1,
        read1_lt _ _ e1, read1_lt n _ (by omega), readLoc_emit d.loc n 255 _ (by omega) h2 g0 g1 g2 g3, g4, hs, e2, pure, StateT.pure]
  | fieldQuery => rfl
  | clearOverflow => rfl
  | restartNode => rfl
  | insertRun a =>
    obtain ⟨h1, h2, h3, h4, h5⟩ := h
    obtain ⟨c1, c2, c3⟩ := dest_class _ _ h3 h4
    rw [ap (emitParams _)]; simp only [emitParams, List.append_assoc, List.cons_append, List.nil_append]
    simp [-List.append_nil, readParams, readInsert, Directive.code, bind, StateT.bind, readRun_packRun _ _ h1,
        readDir_code, readTime_packTime _ _ h2, read1_lt _ _ c1, readDirPlatform_emit _ _ h5, c2, c3, pure, StateT.pure]
  | setMode m p =>
    rw [ap (emitParams _)]; simp only [emitParams, List.append_assoc, List.cons_append, List.nil_append]
    simp [-List.append_nil, readParams, Directive.code, bind, StateT.bind, read1_lt _ _ h.1,
        readDirPlatform_emit _ _ h.2, pure, StateT.pure]
  | isolateSection i => have h' : i ≤ 255 := h; simp [readParams, emitParams, Directive.code, bind, StateT.bind,
      read1_lt _ _ h', pure, StateT.pure]
  | restoreSection i => have h' : i ≤ 255 := h; simp [readParams, emitParams, Directive.code, bind, StateT.bind,
      read1_lt _ _ h', pure, StateT.pure]
  | dayStart t =>
    rw [ap (emitParams _)]; simp only [emitParams]
    simp [-List.append_nil, readParams, Directive.code, bind, StateT.bind, readTimeAny_packTime _ _ h, pure,
        StateT.pure]
  | unknown c ps =>
    obtain ⟨h1, h2, h3⟩ := h
    simp only [emitParams, Directive.code]
    unfold readParams
    split <;> first | omega | rfl

theorem dir_code_le (d : Directive) (h : d.fits) : d.code ≤ 255 := by
  cases d <;> simp [Directive.code]
  exact h.2.1

theorem readPoint_emit (v : PointVal) (b : Bytes) (h : optAll v.value (· ≤ 15)) : readPointVal (emitPoint v :: b) =
    some (v, b) := by
  obtain ⟨x, st⟩ := v
  simp only [emitPoint]
  cases x with
  | none =>
    have key : ∀ st : Bool, (0 + bitAt 4 true + bitAt 5 st) ≤ 255 ∧ bitOf (0 + bitAt 4 true + bitAt 5 st) 4 = true ∧
        bitOf (0 + bitAt 4 true + bitAt 5 st) 5 = st := by decide
    obtain ⟨k1, k2, k3⟩ := key st
    simp only [Option.getD_none, Option.isNone_none]
    generalize 0 + bitAt 4 true + bitAt 5 st = z at *
    simp [readPointVal, bind, StateT.bind, read1_lt _ _ k1, k2, k3, pure, StateT.pure]
  | some n =>
    have hn : n ≤ 15 := h n rfl
    have key : ∀ n < 16, ∀ st : Bool, (n + bitAt 4 false + bitAt 5 st) ≤ 255 ∧ bitOf (n + bitAt 4 false +
        bitAt 5 st) 4 = false ∧ bitOf (n + bitAt 4 false + bitAt 5 st) 5 = st ∧ (n + bitAt 4 false + bitAt 5 st) % 16 = n := by decide
    obtain ⟨k1, k2, k3, k4⟩ := key n (by omega) st
    simp only [Option.getD_some, Option.isNone_some]
    generalize n + bitAt 4 false + bitAt 5 st = z at *
    simp [readPointVal, bind, StateT.bind, read1_lt _ _ k1, k2, k3, k4, pure, StateT.pure]

/-- The body of every kind of telegram reads back (12.2). -/
theorem readBody_emit (b : Body) (h : b.fits) : readBody b.code (emitBody b) = some (b, []) := by
  have ap : ∀ l : Bytes, l = l ++ [] := by simp
  have e0 : ∀ p : Bool, bitAt 0 p ≤ 255 ∧ bitAt 0 p ≤ 1 ∧ (bitAt 0 p == 1) = p ∧ bitOf (bitAt 0 p) 0 = p := by decide
  have er : ∀ (p : Bool) (b : Bytes), readIn 1 0 1 (byteOf (bitAt 0 p) :: b) = some (bitAt 0 p, b) := by
    intro p b; exact readIn_byteOf 0 1 _ b (by have := e0 p; omega) (by omega) (e0 p).2.1
  cases b with
  | incident x => rw [ap (emitBody _)]; simp only [emitBody]; exact readIncident_emit x [] h
  | powerAsk x =>
    obtain ⟨h1, h2, h3, h4, h5, h6⟩ := h
    obtain ⟨g, g0, g1, _⟩ := bits_read x.ready.isSome x.overrideFlag false false false false false
    have hn : bitAt 0 x.ready.isSome + bitAt 1 x.overrideFlag + bitAt 2 false + bitAt 3 false + bitAt 4 false +
        bitAt 5 false + bitAt 6 false = bitAt 0 x.ready.isSome + bitAt 1 x.overrideFlag := rfl
    rw [hn] at g g0 g1
    rw [ap (emitBody _)]; simp only [emitBody, emitPowerAsk, List.append_assoc, List.cons_append, List.nil_append]
    generalize bitAt 0 x.ready.isSome + bitAt 1 x.overrideFlag = n at *
    have ht := fun b => readTimeOpt x.ready (bitOf n 0) b g0 h4
    rw [g0] at ht
    simp [-List.append_nil, readBody, Body.code, readPowerAsk, readPlatform, bind, StateT.bind, read1_lt _ _ h1,
        readIn_byteOf 0 3 _ _ (by omega) (by omega) h2, read1_lt _ _ h3, read1_lt n _ (by omega), g0, g1, ht,
      readIn_bytesOf 2 0 8000 x.demand _ (by simp; omega) (by omega) h5, readIn_bytesOf 2 0 4000 x.credit _ (by simp; omega) (by omega) h6, pure, StateT.pure]
  | powerGrant k p n => obtain ⟨h1, h2, h3⟩ := h; simp [emitBody, readBody, Body.code, readPower, readPlatform, bind,
      StateT.bind, read1_lt _ _ h1, readIn_byteOf 0 3 _ _ (by omega) (by omega) h2, read1_lt _ _ h3, pure, StateT.pure]
  | powerReturn k p n => obtain ⟨h1, h2, h3⟩ := h; simp [emitBody, readBody, Body.code, readPower, readPlatform, bind,
      StateT.bind, read1_lt _ _ h1, readIn_byteOf 0 3 _ _ (by omega) (by omega) h2, read1_lt _ _ h3, pure, StateT.pure]
  | powerDefer k p n f => obtain ⟨h1, h2, h3⟩ := h; simp [emitBody, readBody, Body.code, readDefer, readPlatform, bind,
      StateT.bind, read1_lt _ _ h1, readIn_byteOf 0 3 _ _ (by omega) (by omega) h2, read1_lt _ _ h3, er, (e0 f).2.2.1, pure, StateT.pure]
  | status x => rw [ap (emitBody _)]; simp only [emitBody]; exact readStatus_emit x [] h
  | handover e => rw [ap (emitBody _)]; simp only [emitBody]; simp [-List.append_nil, readBody, Body.code, bind,
      StateT.bind, readCarried_emit none true e [] h (.inl ⟨rfl, rfl⟩), pure, StateT.pure]
  | takeover r d q => obtain ⟨h1, h2⟩ := h; simp [emitBody, readBody, Body.code, readTakeover, bind, StateT.bind,
      readRun_packRun _ _ h1, readDir_code, read1_lt _ _ h2, pure, StateT.pure]
  | refusal r d q f => obtain ⟨h1, h2⟩ := h; simp [emitBody, readBody, Body.code, readRefusal, bind, StateT.bind,
      readRun_packRun _ _ h1, readDir_code, read1_lt _ _ h2, er, (e0 f).2.2.1, pure, StateT.pure]
  | renewAsk d => simp [emitBody, readBody, Body.code, readRenewAsk, bind, StateT.bind, readDir_code, pure, StateT.pure]
  | renewReply d c x =>
    have hc : ∀ hh : optAll c (· ≤ 255), c.getD 0 ≤ 255 ∧ (if c.isSome = true then some (c.getD 0) else none) = c := by
      intro ho; cases c with | none => simp | some x => simpa using ho x rfl
    cases x with
    | sent es =>
      obtain ⟨h1, h2, h3⟩ := h
      have hm :=
          readMany_map (readCarried (some d)) (emitCarried false) es [] (fun e he b => readCarried_emit (some d) false e b (h3 e he).2 (.inr ⟨rfl, by rw [(h3 e he).1]⟩))
      rw [ap (emitBody _)]; simp only [emitBody, List.append_assoc, List.cons_append, List.nil_append]
      simp [-List.append_nil, readBody, Body.code, readRenewReply, bind, StateT.bind,
          readIn_byteOf 0 1 0 _ (by omega) (by omega) (by omega), readDir_code, read1_lt _ _ (e0 c.isSome).1, (e0 c.isSome).2.2.2, read1_lt _ _ (hc h1).1, readIn_byteOf 0 8 _ _ (by omega) (by omega) h2, hm, (hc h1).2, pure, StateT.pure]
    | received es =>
      obtain ⟨h1, h2, h3⟩ := h
      have hm := readMany_map readRecv emitRecv es [] (fun e he b => by
        have := h3 e he
        simp [readRecv, emitRecv, bind, StateT.bind, readRun_packRun _ _ this.1, read1_lt _ _ this.2, pure,
            StateT.pure])
      rw [ap (emitBody _)]; simp only [emitBody, List.append_assoc, List.cons_append, List.nil_append]
      simp [-List.append_nil, readBody, Body.code, readRenewReply, bind, StateT.bind,
          readIn_byteOf 0 1 1 _ (by omega) (by omega) (by omega), readDir_code, read1_lt _ _ (e0 c.isSome).1, (e0 c.isSome).2.2.2, read1_lt _ _ (hc h1).1, readIn_byteOf 0 8 _ _ (by omega) (by omega) h2, hm, (hc h1).2, pure, StateT.pure]
  | directive n d =>
    have hp := readParams_emit d h.2
    simp [emitBody, emitDirective, readBody, Body.code, readDirective, bind, StateT.bind,
        read1_lt _ _ (dir_code_le d h.2), read1_lt _ _ h.1, hp, pure, StateT.pure]
  | answer x =>
    obtain ⟨h1, h2, h3⟩ := h
    obtain ⟨a1, a2⟩ := ans_code x.result
    obtain ⟨code, serial, result, points⟩ := x
    simp only at *
    by_cases hq : code = 7 ∧ result = .done
    · rw [if_pos hq] at h3
      obtain ⟨ps, p1, p2, p3⟩ := h3
      have hm := readMany_map readPointVal (fun v => [emitPoint v]) ps [] (fun v hv b => readPoint_emit v b (p3 v hv))
      rw [p2] at hm
      have hf : ∀ l : List PointVal, (l.map (fun v => [emitPoint v])).flatten = l.map emitPoint := by
        intro l
        induction l with
        | nil => rfl
        | cons a as ih => simp [ih]
      rw [hf, List.append_nil] at hm
      obtain ⟨q1, q2⟩ := hq
      subst q1 q2 p1
      simp [emitBody, emitAnswer, readBody, Body.code, readAnswer, bind, StateT.bind, read1_byteOf,
          Nat.mod_eq_of_lt (show serial < 256 by omega), answerOf, answerCode]
      simp [hm, pure, StateT.pure]
    · rw [if_neg hq] at h3
      subst h3
      have hcode : code % 256 = code := Nat.mod_eq_of_lt (by omega)
      have hser : serial % 256 = serial := Nat.mod_eq_of_lt (by omega)
      cases result <;>
        simp [emitBody, emitAnswer, readBody, Body.code, readAnswer, bind, StateT.bind, read1_byteOf, hcode, hser,
            answerOf, answerCode, pure, StateT.pure]
      simp at hq
      simp [hq, StateT.pure]
  | planOpen i n r => obtain ⟨h1, h2, h3⟩ := h; simp [emitBody, readBody, Body.code, readPlanOpen, bind, StateT.bind,
      read1_lt _ _ h1, read1_lt _ _ h2, read1_lt _ _ h3, pure, StateT.pure]
  | planClose i n =>
    obtain ⟨h1, h2⟩ := h
    rw [ap (emitBody _)]; simp only [emitBody, List.cons_append]
    simp [-List.append_nil, readBody, Body.code, readPlanClose, bind, StateT.bind, read1_lt _ _ h1, read2_lt _ _ h2,
        pure, StateT.pure]
  | planBlock i n es =>
    obtain ⟨h1, h2, h3, h4⟩ := h
    have hm := readMany_map readEntry emitEntry es [] (fun e he b => readEntry_emit e b (h4 e he))
    rw [ap (emitBody _)]; simp only [emitBody, List.append_assoc, List.cons_append, List.nil_append]
    simp [-List.append_nil, readBody, Body.code, readPlanBlock, bind, StateT.bind, read1_lt _ _ h1, read1_lt _ _ h2,
        readIn_byteOf 0 8 _ _ (by omega) (by omega) h3, hm, pure, StateT.pure]

theorem sum_len {α : Type} (f : α → Bytes) (l : List α) (k : Nat) (h : ∀ x ∈ l, (f x).length = k) :
    (l.map f).flatten.length = l.length * k := by
  induction l with
  | nil => simp
  | cons x xs ih =>
    have := ih (fun y hy => h y (by simp [hy]))
    simp at this
    simp [h x (by simp), this, Nat.add_mul]; omega

theorem emitCarried_length (w : Bool) (e : SentEntry) : (emitCarried w e).length = if w then 15 else 14 := by
  cases w <;> simp [emitCarried, packRun_length, packTime_length, packLateness, packDigits_length, bytesOf_length]

/-- No body is longer than 120 bytes (R200). -/
theorem emitBody_length (b : Body) (h : b.fits) : (emitBody b).length ≤ 120 := by
  cases b with
  | incident x => simp [emitBody, emitIncident, emitId, emitLoc, emitSpan, packRun_length, packTime_length,
      packTimeOpt, bytesOf_length]
  | powerAsk x => simp [emitBody, emitPowerAsk, packTime_length, packTimeOpt, bytesOf_length]
  | powerGrant k p n => simp [emitBody]
  | powerReturn k p n => simp [emitBody]
  | powerDefer k p n f => simp [emitBody]
  | status x =>
    have := sum_len emitSection x.sections 5 (by intro e _; simp [emitSection, bytesOf_length])
    have h4 := h.2.2.2.2.2.2.2.2.2.1
    simp at this
    simp [emitBody, emitStatus, emitStatusDir, packRun_length, packTime_length, packTimeOpt, bytesOf_length,
        this]; omega
  | handover e => simp [emitBody, emitCarried_length]
  | takeover r d q => simp [emitBody, packRun_length]
  | refusal r d q f => simp [emitBody, packRun_length]
  | renewAsk d => simp [emitBody]
  | renewReply d c x =>
    cases x with
    | sent es =>
      have := sum_len (emitCarried false) es 14 (by intro e _; simp [emitCarried_length])
      have h4 := h.2.1
      simp at this
      simp [emitBody, this]; omega
    | received es =>
      have := sum_len emitRecv es 3 (by intro e _; simp [emitRecv, packRun_length])
      have h4 := h.2.1
      simp at this
      simp [emitBody, this]; omega
  | directive n d =>
    have hsl : ∀ l : List Nat, l.length = 4 → (emitSlots l).length = 8 := by
      intro l hl; have :=
          sum_len (bytesOf 2) l 2 (by intro e _; simp [bytesOf_length]); simp [emitSlots]; simp at this; omega
    cases d <;> simp [emitBody, emitDirective, emitParams, emitId, packRun_length, emitPlatform, packTime_length,
        emitLoc, emitSpan, bytesOf_length]
    · have := hsl _ h.2.2.2.1; omega
    · have := hsl _ h.2.2.1; omega
    · have := h.2.2.2; omega
  | answer x =>
    obtain ⟨h1, h2, h3⟩ := h
    simp only [emitBody, emitAnswer]
    split at h3
    · obtain ⟨ps, p1, p2, p3⟩ := h3; simp [p1, p2]
    · simp [h3]
  | planOpen i n r => simp [emitBody]
  | planClose i n => simp [emitBody, bytesOf_length]
  | planBlock i n es =>
    have := sum_len emitEntry es 8 (by intro e _; simp [emitEntry, packRun_length, packTime_length])
    have h4 := h.2.2.1
    simp at this
    simp [emitBody, this]; omega

/-- The kind and the class of a body fit a byte. -/
theorem body_code (b : Body) : b.code ≤ 255 ∧ classCode b.cls ≤ 255 := by
  cases b <;> simp [Body.code, Body.cls, classCode]

end Sys2Proof.Machine
end

