-- ==== Sys2Proof/Tests/Slice0.lean ====
section
/-! SUPPORT. Tests: ill-formed commands, witnesses that the statements' hypotheses can be met together
(`test_met_<statement>`), and single steps on a small station node. -/

namespace Sys2Proof.Tests

open Sys2Proof Sys2Proof.Machine

set_option Elab.async false

/-! ## A small station node -/

/-- Platform 0 of the test node: UP, its onward section 10 owned; a departure needs 300 to 600 ds of dwell. -/
def plat0 : PlatformCfg :=
  { dir := .up, turnback := false, onward := 10, onwardSpan := ⟨120, 300⟩, point := 110, dp := 300, dmin := 200,
    hmax := 600, wtt := 0, dc := 0, rw := 20, bk := 50, approach := 300, offset := 0, pw := 60 }

/-- Platform 1: a DOWN turnback platform, its onward section 11 the partner's. -/
def plat1 : PlatformCfg := { plat0 with dir := .down, turnback := true, onward := 11 }

/-- The owned section, with node 3 its partner. -/
def sec0 : SectionCfg :=
  { id := 10, span := ⟨100, 300⟩, owner := true, partner := 3, imax := 4000, limit := 2, g := 100000, fz := 1000,
    ks := 100, rd := 50 }

/-- The section that node 1 owns. -/
def sec1 : SectionCfg := { sec0 with id := 11, span := ⟨0, 100⟩, owner := false, partner := 1 }

/-- Node 2 between nodes 1 and 3, with two consoles. -/
def cfg0 : NodeConfig :=
  { NodeConfig.blank with
    node := 2
    upstreamUp := 1
    downstreamUp := 3
    upstreamDown := 3
    downstreamDown := 1
    spanUp := some ⟨0, 110⟩
    spanDown := some ⟨110, 300⟩
    platforms := [plat0, plat1]
    sections := [sec0, sec1]
    traction := some { demand := [800, 900, 1000, 1100], rc := 400, sw := 100 }
    incidents := some { lateThreshold := 60, alertLevel := 5, periods := List.replicate 5 600 }
    consoles := [⟨5, 3⟩, ⟨6, 1⟩]
    announce := { AnnounceCfg.blank with templates := [[.phrase 7], []], phraseTimeout := 50 }
    points := [.breaker 0, .alarm 0, .unassigned]
    tracks := [⟨.berth 0, false, 1⟩, ⟨.brake 0, false, 0⟩, ⟨.berth 1, false, 0⟩, ⟨.brake 1, true, 100⟩] }

/-- The node in RUNNING at running time 1,000, its clock VALID. -/
def run0 : State :=
  { State.reset with
    cfg := cfg0
    cfl := { Cfl.cold with start := .running }
    slc := { Slc.cold with filtersOn := true, lastValid := 1000 }
    tiu := { Tiu.cold with clock := some 500000 }
    runTime := 1000
    refMoment := 100050000 }

/-- The same node in another start state. -/
def inState (x : StartState) : State := { run0 with cfl := { Cfl.cold with start := x } }

/-- A telegram as it stands in the receive queue. -/
def rcv (t : Telegram) : Received := { tg := t, bytes := emitTelegram t, time := 990, stamp := some 499990 }

/-- The node with a telegram at the head of its receive queue. -/
def heard (s : State) (t : Telegram) : State := { s with lbc := { s.lbc with rx := [rcv t] } }

/-- A telegram to this node. -/
def toMe (sender : Nat) (b : Body) : Telegram := { sender := sender, target := 2, body := b }

/-- The node with reports in its FIFO. -/
def reported (s : State) (rs : List Report) : State := { s with slc := { s.slc with reports := rs } }

/-- A record of the train table. -/
def rec0 : TrainRec :=
  { run := 101, dir := .up, state := .approaching, origin := 400000, dest := 3, pclass := 1, lateness := some 0,
    recvSeq := some 7, aa := none, tr := none, grantTime := none, platform := none, consoleHold := false,
    announcedApproach := false, announcedHeld := false, regenMatched := false, departedWithout := false,
    withdraw := false, incRef := none, tag := 9, converted := false }

/-- The node with records in its table. -/
def withRecs (s : State) (rs : List TrainRec) : State := { s with ttu := { s.ttu with table := rs } }

/-- Sixteen records: a full table. -/
def fullTable : List TrainRec := (List.range 16).map (fun k => { rec0 with run := 200 + k, tag := 20 + k, state := .handing })

/-- A candidate held since the start of the tick. -/
def cand (active : Bool) : Candidate := { active := active, began := 100000000, stamp := some 499999 }

/-- The node with a candidate at input i, its first level pending or not. -/
def withCand (s : State) (i : Nat) (active first : Bool) : State :=
  { s with slc := { s.slc with tracks := s.slc.tracks.modify i (fun t =>
      { t with candidate := some (cand active), firstMark := first }) } }

/-- A record regulated at platform p in a state. -/
def regulatedAt (s : State) (p : Nat) (st : TrainState) : State :=
  (withRecs s [{ rec0 with state := st, platform := some p }]).updCtx p (fun c => { c with tag := some 9 })

/-- Channel i with its expiry due. -/
def chanDue (s : State) (i : Nat) : State := s.updChan i (fun c => { c with expiryDue := true })

/-- A timer held at pool channel 5 by an owner, run out. -/
def timerDue (s : State) (o : TimerOwner) : State :=
  s.updChan 5 (fun c => { c with use := .running, owner := some o, tag := 4, expiryDue := true })

/-- The handle of that timer. -/
def hdl : Handle := { slot := .chan 5, tag := 4 }

/-- A plan entry. -/
def entry0 : PlanEntry := { run := 999, platform := 1, departure := 1079999, dest := 31, pclass := 3 }

/-- The node with no timer to be had. -/
def noTimers (s : State) : State :=
  { s with tiu := { s.tiu with
      chans := s.tiu.chans.map (fun c => { c with use := .running })
      coarse := s.tiu.coarse.map (fun p => { p with occupied := true }) } }

/-- A watched node. -/
def watch1 (present : Bool) (t : Nat) : Watched := { node := 1, present := present, lastHeard := some t, latest := none }

/-- The node watching node 1. -/
def watching (w : Watched) : State := { run0 with lbc := { Lbc.cold with watched := [w] } }

/-- The node in CONSOLE role. -/
def atConsole (s : State) : State := { s with cfg := { s.cfg with role := .console } }

/-! ## WellFormed: an ill-formed term for each check -/

theorem test_illFormed_trackInput : (Instr.trackInputChange 8 0 true).wf = false := by decide
theorem test_illFormed_edge : (Instr.berthRise 0 100000).wf = false := by decide
theorem test_illFormed_platform : (Instr.dwellMark 4).wf = false := by decide
theorem test_illFormed_tag : (Instr.handoverRetryExpiry 65536).wf = false := by decide
theorem test_illFormed_record : (Instr.gateCompletion 4 0).wf = false := by decide
theorem test_illFormed_incident : (Instr.peerAgeing 0 1).wf = false ∧ (Instr.peerAgeing 1 4096).wf = false := by decide
theorem test_illFormed_serial : (Instr.escalationExpiry 0).wf = false := by decide
theorem test_illFormed_transmit : (Instr.transmitStart 100000 0 true).wf = false := by decide
theorem test_illFormed_telegram : (Instr.telegramReceived 0 (List.replicate 263 0)).wf = false := by decide +kernel
theorem test_illFormed_fragment : (Instr.fragment 100000 []).wf = false := by decide
theorem test_illFormed_node : (Instr.neighbourAbsent 33).wf = false := by decide
theorem test_illFormed_frame : (Instr.validFrame (List.replicate 161 0)).wf = false := by decide +kernel
theorem test_wellFormed : (Instr.berthRise 7 99999).wf = true ∧ (Instr.peerAgeing 32 4095).wf = true := by decide

/-! ## Witnesses: the queue of commands, and what is kept -/

theorem test_met_StepTakesTheFront : ({ run0 with pending := [.tick] } : State).pending = .tick :: [] ∧
    State.reset.pending = [] := ⟨rfl, rfl⟩

/-- With lists as long as they may be. -/
theorem test_met_StepKeepsPlaces :
    let t : Taken := { platform := 0, serial := 1, demand := 0, takenAt := 900, origin := .remote }
    let c : Counted := { node := 3, platform := 0, serial := 6, demand := 500, endTime := 1000 }
    let a : Arb := { counted := List.replicate 3 c, queue := [], standIn := false, taken := List.replicate 3 t }
    let w := withRecs run0 fullTable
    let h : HoeDir := { run0.hoe.up with received := List.replicate 8 { run := 101, seq := 255 } }
    let s : State := { w with
      ttu := { w.ttu with launch := List.replicate 512 { plan := entry0, state := .pending }, staging := List.replicate 512 entry0 }
      hoe := { run0.hoe with up := h, down := h }
      anu := { run0.anu with fifo := List.replicate 16 { code := 7, num := 1, element := 0, place := 0 } }
      lbc := { run0.lbc with dropTimes := [400, 700, 1000] }
      secs := run0.secs.map (fun d => { d with attempts := [900, 950] })
      sar := { Sar.cold with arbs := List.replicate 4 a }
      slc := { run0.slc with cmds := List.replicate 32 { cmd := .authority 0 true, note := .none } } }
    s.PlacesFit ∧ ∃ t, step s = .next t := ⟨by decide +kernel, _, rfl⟩

theorem test_met_CommandsLeaveTheRest : ∃ t, exec .readyFall run0 = .next t := ⟨_, rfl⟩

theorem test_met_StepKeepsRest : run0.Quiet ∧ ∃ t, step run0 = .next t := ⟨⟨rfl, rfl⟩, _, rfl⟩

/-- With 24 telegrams held, and the running time at its greatest value. -/
theorem test_met_StepKeepsInputsFit :
    let s : State := { run0 with
      lbc := { Lbc.cold with rx := List.replicate 24 (rcv (toMe 1 (.renewAsk .up))) }
      runTime := 4294967295 }
    s.InputsFit ∧ (∃ t, step s = .next t) ∧ (atConsole run0).ConsoleSeesNoPoint ∧ (atConsole run0).cfg.role = .console ∧
      ∃ t, step (atConsole run0) = .next t := ⟨by decide, ⟨_, rfl⟩, by decide +kernel, rfl, _, rfl⟩

/-! ## Witnesses: starts -/

theorem test_met_ColdStartsBeginLoading : run0.pins.resetLow = false ∧
    ({ run0 with pins := { Pins.cold with resetLow := true } } : State).pins.resetLow = true := by decide

/-- An image of the identity group alone: node 1, a station node. -/
def image0 : Bytes := let b : Bytes := [0xC4, 0x02, 0x00, 0x0E, 0x01, 0x00, 0x03, 0x01, 0x00, 0x00]; b ++ bytesOf 4 (crc32 b)

theorem test_met_ImageDecidesTheStart : State.reset.Ready ∧ State.reset.cfl.start = .loading ∧
    parseImage image0 = some { NodeConfig.blank with node := 1 } ∧ parseImage [] = none := by decide +kernel

/-- The field image of LOADING stays at a station and becomes empty at a console. -/
theorem test_consoleImage :
    let s := State.reset.setPoint 3 1
    (s.beginListen.imagePoint 3).value = some 1 ∧ (atConsole s).beginListen.slc.image = noPoints := by decide +kernel

theorem test_met_ListenAndRebuildEnd :
    (let s : State := { inState .listen with cfl := { Cfl.cold with start := .listen, listenAt := some 980 } };
      s.Ready ∧ s.cfl.start = .listen ∧ s.cfl.listenAt = some 980 ∧ 980 + 20 ≤ s.runTime) ∧
    (let s : State := { inState .listen with cfl := { Cfl.cold with start := .listen, listenAt := some 981 } };
      s.cfl.start = .listen ∧ s.cfl.listenAt = some 981 ∧ s.runTime < 981 + 20) ∧
    (let s : State := { timerDue (inState .rebuild) .rebuild with hoe := { Hoe.cold with rebuildTimer := some hdl } };
      s.Ready ∧ s.cfl.start = .rebuild ∧ s.expiredOpt s.hoe.rebuildTimer = true) := by decide +kernel

theorem test_met_WarmStartKeeps :
    let s : State := { run0 with cfl := { run0.cfl with restart := .ready } }
    s.Ready ∧ s.cfl.restart = .ready := by decide

/-! ## Witnesses: the clock -/

theorem test_met_ServiceClockKeepsItsStates : run0.pins.resetLow = false ∧ (∃ t, exec .tick run0 = .next t) ∧
    (let s : State := { run0 with tiu := Tiu.cold };
      s.tiu.clock = none ∧ 0 < s.slc.tracks.length ∧
        ((s.rawChange 0 5 true).track 0).candidate = some { active := true, began := 5, stamp := none }) ∧
    (∃ t, exec .powerOn run0 = .next t) ∧ (∃ t, exec .resetAssert run0 = .next t) ∧ run0.tiu.clock ≠ none :=
  ⟨rfl, ⟨_, rfl⟩, by decide +kernel, ⟨_, rfl⟩, ⟨_, rfl⟩, by decide⟩

theorem test_met_TickCountsTimersDown :
    let s := (run0.updChan 5 (fun c => { c with use := .running, count := 1, mark := some 0 })).updChan 6
      (fun c => { c with use := .running, count := 0, partner := some 7 }) |>.updChan 7
      (fun c => { c with use := .running, count := 1, partner := some 6 })
    s.pins.resetLow = false ∧ (s.chan 5).use = .running ∧ (s.chan 5).partner = none ∧ (s.chan 5).expiryDue = false ∧
      0 < (s.chan 5).count ∧ 5 < s.tiu.chans.length ∧ 6 + 1 < s.tiu.chans.length ∧ 6 % 2 = 0 ∧
      (s.chan 6).use = .running ∧ (s.chan 7).use = .running ∧ (s.chan 6).partner = some 7 ∧
      (s.chan 7).partner = some 6 ∧ (s.chan 6).expiryDue = false ∧ (s.chan 7).expiryDue = false ∧
      0 < (s.chan 6).count + 65536 * (s.chan 7).count ∧ 15 < s.tiu.coarse.length := by decide +kernel

theorem test_met_TrimMovesTheClockAlone : run0.pins.resetLow = false ∧
    (let s : State := { run0 with tiu := { run0.tiu with trimDue := true, offsets := [⟨1, 3, 400⟩, ⟨3, 2, 1000⟩] } };
      s.Ready ∧ s.tiu.trimDue = true ∧ s.tiu.clock = some 500000 ∧ s.cfg.role = .station ∧ s.cfg.reference = false ∧
        s.trimNeighbours = [1, 3] ∧ s.trimNeighbours.filterMap s.freshOffset = [3, 2]) := by decide +kernel

theorem test_met_StatusPeriodSendsStatus :
    let s := chanDue run0 4
    (s.Ready ∧ (s.chan 4).expiryDue = true ∧ s.cfl.start = .running ∧ s.lbc.mute = false ∧ s.lbc.controlQ.length < 16) ∧
    (∀ f ∈ [none, some 1, some 2],
      let r : State := { chanDue (inState .rebuild) 4 with hoe := { Hoe.cold with rebuildFallback := f } };
      r.Ready ∧ (r.chan 4).expiryDue = true ∧ r.cfl.start = .rebuild ∧ r.hoe.rebuildFallback = f ∧ r.lbc.mute = false) ∧
    (inState .listen).speaking = false ∧
    (∀ n ∈ [8, 9],
      let m : State := { s with lbc := { s.lbc with mute := true, mutePeriods := n } };
      m.Ready ∧ (m.chan 4).expiryDue = true ∧ m.speaking = true ∧ m.hoe.rebuildFallback = none ∧ m.lbc.mute = true ∧
        m.lbc.controlQ.length < 16) ∧
    (s.cfg.role = .station ∧ (atConsole s).cfg.role = .console ∧
      s.pcfg 0 = some plat0 ∧ s.anu.lastLines.getD 0 none ≠ some (s.lineOf 0 plat0) ∧
      ({ s with anu := { s.anu with lastLines := [some []] } } : State).anu.lastLines.getD 0 none = some (s.lineOf 0 plat0) ∧
      [FieldCmd.display 0 []].any (fun x => match x with | .display q _ => q == 0 | _ => false) = true) := by
  decide +kernel

/-! ## Witnesses: track inputs -/

theorem test_met_TrackChangeMovesTheCandidate : (0 < 8 ∧ 3 < 8) ∧ run0.momentAt 99999 = some 100099999 ∧
    run0.pins.trk.getD 0 false ≠ true ∧ run0.sampled 0 = true ∧ run0.sampled 3 = true := by decide +kernel

theorem test_met_EdgesBeforeRunning :
    let s := inState .rebuild
    s.Ready ∧ s.momentAt 50000 = some 100050000 ∧ s.cfl.start ≠ .running ∧
      (withCand s 0 true true).acceptable 0 100050000 true = some (cand true) ∧ (s.trackCfg 0).use = .berth 0 ∧
      (withCand s 1 true true).acceptable 1 100050000 true = some (cand true) ∧ (s.trackCfg 1).use = .brake 0 ∧
      (withCand s 0 true false).acceptable 0 100050000 false = some (cand true) ∧ (cand true).active = true ∧
      s.pcfg 0 = some plat0 ∧
      (withCand s 0 false false).acceptable 0 100050000 false = some (cand false) ∧ (cand false).active = false ∧
      (withCand s 1 true false).acceptable 1 100050000 false = some (cand true) ∧
      (run0.Ready ∧ run0.momentAt 50000 = some 100050000 ∧ run0.cfl.start = .running) ∧
      ∀ b ∈ [true, false], (withCand run0 0 b true).acceptable 0 100050000 true = some (cand b) ∧
        (withCand run0 1 b true).acceptable 1 100050000 true = some (cand b) := by
  decide +kernel

/-- A launch list entry of platform 1 for a run. -/
def launch0 (run : Nat) (st : LaunchState) : LaunchEntry :=
  { plan := { run := run, platform := 1, departure := 510000, dest := 4, pclass := 2 }, state := st }

/-- The node with a launch list. -/
def withLaunch (s : State) (l : List LaunchEntry) : State := { s with ttu := { s.ttu with launch := l } }

theorem test_met_BerthRiseTakesTheOldest :
    (let s := withCand (withRecs run0 [rec0]) 0 true false;
      s.Ready ∧ s.momentAt 50000 = some 100050000 ∧ s.cfl.start = .running ∧
        s.acceptable 0 100050000 false = some (cand true) ∧ (s.trackCfg 0).use = .berth 0 ∧ (cand true).active = true ∧
        s.pcfg 0 = some plat0 ∧ plat0.turnback = false ∧ s.oldestApproaching plat0.dir = some rec0 ∧
        rec0.withdraw = false) ∧
    (let s := withCand (withRecs run0 fullTable) 0 true false;
      s.Ready ∧ s.acceptable 0 100050000 false = some (cand true) ∧ s.oldestApproaching (arrivalDirOf plat0) = none ∧
        16 ≤ s.ttu.table.length) ∧
    (∀ x ∈ [(0, 0, plat0), (2, 1, plat1)],
      let s := withCand run0 x.1 true false
      let w := withCand (withRecs run0 [{ rec0 with withdraw := true, dir := arrivalDirOf x.2.2 }]) x.1 true false
      s.Ready ∧ w.Ready ∧ s.acceptable x.1 100050000 false = some (cand true) ∧ (s.trackCfg x.1).use = .berth x.2.1 ∧
        s.pcfg x.2.1 = some x.2.2 ∧ s.oldestApproaching (arrivalDirOf x.2.2) = none ∧ s.ttu.table.length < 16 ∧
        (w.oldestApproaching (arrivalDirOf x.2.2)).map (·.withdraw) = some true) ∧
    (let s := withCand (withRecs run0 [rec0, { rec0 with run := 102, tag := 8, state := .dwelling }]) 2 true false;
      let taken := fun (run : Nat) => s.runCarriedByOther run 9;
      let l := [launch0 102 .pending, launch0 103 .pending];
      s.Ready ∧ s.acceptable 2 100050000 false = some (cand true) ∧ (s.trackCfg 2).use = .berth 1 ∧
        s.pcfg 1 = some plat1 ∧ plat1.turnback = true ∧ s.oldestApproaching plat1.dir.opp = some rec0 ∧
        (withLaunch s l).oldestApproaching plat1.dir.opp = some rec0 ∧
        (l.map (·.plan)).find? (fun e => !taken e.run) = some (launch0 103 .pending).plan ∧
        ((l.take 1).map (·.plan)).find? (fun e => !taken e.run) = none ∧
        (useLaunch taken 1 l).1 = [launch0 102 .cancelled, launch0 103 .launched]) := by decide +kernel

theorem test_met_BrakePointEdgesAreTaken :
    (let s := withCand run0 1 true false;
      s.Ready ∧ s.momentAt 50000 = some 100050000 ∧ s.cfl.start = .running ∧
        s.acceptable 1 100050000 false = some (cand true) ∧ (s.trackCfg 1).use = .brake 0 ∧ (cand true).active = true ∧
        s.pcfg 0 = some plat0 ∧ s.oldestApproaching (arrivalDirOf plat0) = none ∧
        ∀ b ∈ [true, false], (withRecs s [{ rec0 with announcedApproach := b }]).oldestApproaching (arrivalDirOf plat0) =
          some { rec0 with announcedApproach := b }) ∧
    (withCand run0 1 false false).acceptable 1 100050000 false = some (cand false) := by decide +kernel

theorem test_met_BerthFallDeparts :
    let r : TrainRec := { rec0 with state := .authorized, platform := some 0 }
    let s := (withCand (withRecs run0 [r]) 0 false false).updPlat 0 (fun d => { d with occupied := true, occupant := some 9 })
    let u := (s.levelAccepted 0 100050000 (cand false)).updPlat 0 (fun d => { d with occupied := false, since := none })
    s.Ready ∧ s.momentAt 50000 = some 100050000 ∧ s.cfl.start = .running ∧
      s.acceptable 0 100050000 false = some (cand false) ∧ (s.trackCfg 0).use = .berth 0 ∧ (cand false).active = false ∧
      s.pcfg 0 = some plat0 ∧ (u.plat 0).occupant = some r.tag ∧ s.recOf r.tag = some r ∧ r.state = .authorized ∧
      ∀ st ∈ [TrainState.dwelling, .asking, .granted, .held],
        (withRecs s [{ r with state := st }]).recOf r.tag = some { r with state := st } := by
  decide +kernel

theorem test_met_BerthFallDeparts_spare :
    let s := fun (o : Option Nat) => (withCand (withRecs run0 [{ rec0 with state := .spare, platform := some 0 }]) 0 false
      false).updPlat 0 (fun d => { d with occupied := true, occupant := o })
    (∀ o ∈ [none, some 8], (s o).Ready ∧ ((s o).plat 0).occupant.bind (s o).recOf = none) ∧
      ((s (some 9)).plat 0).occupant = some rec0.tag ∧ ((s (some 9)).recOf rec0.tag).map (·.state) = some .spare := by
  decide +kernel

/-! ## Witnesses: holds -/

/-- The record regulated at platform 0, its hold set as before, the onward section energized or not. -/
def holding (st : TrainState) (old : List HoldCond) (withdraw live : Bool) : State :=
  let r : TrainRec := { rec0 with state := st, platform := some 0, withdraw := withdraw }
  let s := if live then run0.updSec 0 (fun d => { d with state := some .energized }) else run0
  (withRecs s [r]).updCtx 0 (fun c => { c with tag := some 9, holdSet := old })

/-- Run 101 at platform 0, its Dc as given, arrived at 499,950, with a braking start captured there. -/
def computing (dc clock : Nat) (brake : Option Nat) : State :=
  let s := (withRecs run0 [{ rec0 with state := .dwelling, platform := some 0, aa := some 499950 }]).updCtx 0 (fun x =>
    { x with latestBrake := brake })
  { s with cfg := { s.cfg with platforms := [{ plat0 with dc := dc }, plat1] }, tiu := { s.tiu with clock := some clock } }

/-- The clamp to Dmin, the regen match at the edge of its window and beyond it, and the loads of the channel: by the time
left, its mark taken at once with Dc or less, and with none left, the onward section dead, by the held cue. -/
theorem test_met_HoldsAriseAndClear_compute :
    (∀ x ∈ [(0, 500000), (149, 500000), (150, 500000), (0, 500150)],
      let s := computing x.1 x.2 none
      s.tiu.clock = some x.2 ∧ s.pcfg 0 = some { plat0 with dc := x.1 } ∧ plat0.dmin ≤ plat0.dp ∧
        (s.recOf 9).bind (·.aa) = some 499950 ∧ 0 < s.rge.ctxs.length ∧
        s.brakingStarts 10 = [] ∧ (s.recOf 9).bind (s.target 0 plat0) = some (500150, false) ∧
        ((handleMsg (.compute 0 9) s).chan 0).count = (if x.2 = 500150 then 300 else 150) ∧
        ((handleMsg (.compute 0 9) s).ctx 0).markPassed = decide ((500150 : Int) - x.2 ≤ x.1)) ∧
    (∀ x ∈ [(500170, some (500170, true)), (500171, some (500150, false)), (500130, some (500150, true))],
      let s := computing 0 500000 (some x.1)
      (x.1 : Int) ∈ s.brakingStarts 10 ∧ (s.recOf 9).bind (s.target 0 plat0) = x.2) := by decide +kernel

theorem test_met_HoldsAriseAndClear :
    (∀ st ∈ [TrainState.dwelling, .asking, .granted, .authorized, .held],
      let s := holding st [] false false;
      s.pcfg 0 = some plat0 ∧ (s.regulated 0).map (·.state) = some st ∧ (s.regulated 0).map (s.holdConds plat0) =
        some [.deadSection] ∧ (s.ctx 0).holdSet = [] ∧
      ((holding st [] true true).regulated 0).map ((holding st [] true true).holdConds plat0) = some [.withdraw] ∧
      ((holding st [] false true).regulated 0).map ((holding st [] false true).holdConds plat0) = some []) ∧
    (∀ old ∈ [[HoldCond.deadSection], [.level, .withdraw]], ((holding .held old false true).ctx 0).holdSet = old) := by
  decide +kernel

/-! ## Witnesses: the departure sequence -/

theorem test_met_MarkMakesTheAsk :
    let mark := fun (s : State) => s.updChan 0 (fun c => { c with markDue := true })
    let s := mark (regulatedAt run0 0 .dwelling)
    s.Ready ∧ s.pcfg 0 = some plat0 ∧ (s.chan 0).markDue = true ∧
      (s.regulated 0).map (·.state) = some .dwelling ∧
      ((mark (regulatedAt run0 0 .held)).regulated 0).map (·.state) = some .held ∧ (mark run0).regulated 0 = none ∧
      (s.secIndex 10 = some 0 ∧ s.owns 0 = true ∧ (s.asker 0).phase = .idle) ∧
      (s.secIndex 11 = some 1 ∧ s.owns 1 = false ∧ s.partnerOf 1 = 1 ∧ s.present 1 = false ∧
        (watching (watch1 true 990)).present 1 = true) := by
  decide +kernel

theorem test_met_AuthorityNeedsNoHold :
    let r : TrainRec := { rec0 with state := .granted, platform := some 0 }
    let s := fun (u : ChannelUse) => (chanDue (regulatedAt run0 0 .granted) 0).updCtx 0 (fun c => { c with use := u })
    (s .toTr).Ready ∧ (s .toTr).pcfg 0 = some plat0 ∧ (s .toTr).dwellExpiryDue 0 = true ∧
      (s .toTr).regulated 0 = some r ∧ r.state = .granted ∧ ((s .toTr).ctx 0).use = .toTr ∧
      ((s .authWait).ctx 0).use = .authWait ∧
      (∀ st ∈ [TrainState.dwelling, .asking, .held],
        (chanDue (regulatedAt run0 0 st) 0).dwellExpiryDue 0 = true ∧
          ((chanDue (regulatedAt run0 0 st) 0).regulated 0).map (·.state) = some st) := by decide +kernel

theorem test_met_DepartureWaitsEnd :
    (let s := (chanDue (regulatedAt run0 0 .held) 0).updCtx 0 (fun c => { c with use := .cueWait });
      s.Ready ∧ s.pcfg 0 = some plat0 ∧ s.dwellExpiryDue 0 = true ∧ (s.ctx 0).use = .cueWait ∧
        (s.regulated 0).map (·.state) = some .held) ∧
    (let s := (timerDue (regulatedAt run0 0 .asking) (.powerWait 0)).updCtx 0 (fun c =>
        { c with powerWait := some hdl, outstanding := true });
      let u := (s.releaseTimer hdl).updCtx 0 (fun y => { y with powerWait := none });
      s.Ready ∧ s.pcfg 0 = some plat0 ∧ (s.ctx 0).powerWait = some hdl ∧ s.expired hdl = true ∧
        (u.regulated 0).map (·.state) = some .asking ∧ (u.ctx 0).outstanding = true) := by decide +kernel

/-! ## Witnesses: handing trains over -/

/-- What a HANDOVER of run 101 carries. -/
def carried0 : Carried :=
  { run := 101, dir := .up, origin := 400000, dest := 3, pclass := 1, lateness := some 0, consoleHold := false,
    withdraw := false, departedWithout := false, incRef := none }

/-- A handover context for the record with tag 9. -/
def hctx0 : HandoverCtx :=
  { tag := 9, seq := 4, attempts := 1, timer := some hdl, phase := .first, reason := none, carried := carried0 }

/-- The node with run 101 HANDING, its retry timer run out. -/
def handing (x : HandoverCtx) : State :=
  { timerDue (withRecs run0 [{ rec0 with state := .handing }]) (.handoverRetry 9) with hoe := { Hoe.cold with ctxs := [x] } }

theorem test_met_HandoverTimersAct :
    (∀ n ∈ [1, 3, 4],
      let s := handing { hctx0 with attempts := n };
      s.Ready ∧ s.retryDue 9 .first = true ∧ (s.dropRetry 9).hctx 9 = some { hctx0 with attempts := n, timer := none }) ∧
    (let s := handing { hctx0 with phase := .orphanRetry };
      s.Ready ∧ s.retryDue 9 .orphanRetry = true) ∧
    (let w : StallWatch := { tag := 9, dir := .up, timer := hdl, paused := false };
      let s : State := { timerDue (withRecs run0 [rec0]) (.stallWatch 9) with hoe := { Hoe.cold with watches := [w] } };
      s.Ready ∧ s.watchOf 9 = some w ∧ s.expired w.timer = true ∧ (s.dropWatch 9).recOf 9 = some rec0) := by decide +kernel

/-- A HANDOVER of run 101 with a sequence, from the upstream node. -/
def handover (seq : Nat) : Telegram := toMe 1 (.handover ⟨carried0, seq⟩)

theorem test_met_HandoverIsAnswered :
    (let s := heard (withRecs run0 [rec0]) (handover 7);
      s.Ready ∧ s.cfg.role = .station ∧ s.HeadIs (handover 7) [] ∧ s.speaking = true ∧ 1 = s.cfg.upstream carried0.dir ∧
        carried0.run ≠ 0 ∧ s.isRepeat ⟨carried0, 7⟩ = true) ∧
    (let s := heard (withRecs run0 [rec0]) (handover 8);
      s.Ready ∧ s.HeadIs (handover 8) [] ∧ s.isRepeat ⟨carried0, 8⟩ = false ∧ s.runCarried 101 = true) ∧
    (let s := heard (withRecs run0 fullTable) (handover 8);
      s.Ready ∧ s.HeadIs (handover 8) [] ∧ s.isRepeat ⟨carried0, 8⟩ = false ∧ s.runCarried 101 = false ∧
        16 ≤ s.ttu.table.length) := by decide +kernel

theorem test_met_HandoverCreatesTheRecord :
    (let s := heard run0 (handover 255);
      s.Ready ∧ s.cfg.role = .station ∧ s.HeadIs (handover 255) [] ∧ s.speaking = true ∧
        1 = s.cfg.upstream carried0.dir ∧ carried0.run ≠ 0 ∧ s.isRepeat ⟨carried0, 255⟩ = false) ∧
    (∃ u tag, ((heard run0 (handover 255)).withRx []).createRec (recOfCarried carried0 255) = (u, .created tag)) :=
  ⟨by decide +kernel, _, _, rfl⟩

theorem test_met_TakeoverAndRefusalAct :
    (let s := heard run0 (toMe 3 (.takeover 101 .up 4));
      s.Ready ∧ s.cfg.role = .station ∧ s.HeadIs (toMe 3 (.takeover 101 .up 4)) [] ∧
        (s.withRx []).matchHandover 3 101 .up 4 = none) ∧
    (let s := heard (handing hctx0) (toMe 3 (.takeover 101 .up 4));
      s.Ready ∧ s.HeadIs (toMe 3 (.takeover 101 .up 4)) [] ∧ (s.withRx []).matchHandover 3 101 .up 4 = some hctx0) ∧
    (∀ n ∈ [3, 4], ∀ dup ∈ [true, false],
      let x := { hctx0 with attempts := n };
      let s := heard (handing x) (toMe 3 (.refusal 101 .up 4 dup));
      s.Ready ∧ s.HeadIs (toMe 3 (.refusal 101 .up 4 dup)) [] ∧ (s.withRx []).matchHandover 3 101 .up 4 = some x ∧
        x.phase = .first) := by decide +kernel

theorem test_met_RenewalIsAskedAndAnswered :
    (let s := heard run0 (toMe 3 (.renewAsk .up));
      s.Ready ∧ s.cfg.role = .station ∧ s.speaking = true ∧ s.HeadIs (toMe 3 (.renewAsk .up)) [] ∧
        s.cfg.upstream .up ≠ s.cfg.downstream .up ∧ 3 = s.cfg.downstream .up) ∧
    ((heard run0 (toMe 1 (.renewAsk .up))).HeadIs (toMe 1 (.renewAsk .up)) [] ∧ 1 = run0.cfg.upstream .up) ∧
    (let s := heard (inState .rebuild) (toMe 1 (.renewReply .up (some 255) (.sent [])));
      s.Ready ∧ s.cfl.start = .rebuild ∧ s.HeadIs (toMe 1 (.renewReply .up (some 255) (.sent []))) [] ∧
        1 = s.cfg.upstream .up ∧ (s.hoeDir .up).upSide = .asked) ∧
    (let s := heard (inState .rebuild) (toMe 3 (.renewReply .up none (.received [])));
      s.Ready ∧ s.HeadIs (toMe 3 (.renewReply .up none (.received []))) [] ∧ 3 = s.cfg.downstream .up ∧
        (s.hoeDir .up).downSide = .asked) := by decide +kernel

/-! ## Witnesses: traction sections -/

/-- Section 0 with a changed record. -/
def withSec (s : State) (f : SecDyn → SecDyn) : State := s.updSec 0 f

theorem test_met_GateGivesTheCurrent :
    (let s := withSec run0 (fun d => { d with gateStart := some 99999999 });
      s.Ready ∧ s.scfg 0 = some sec0 ∧ sec0.owner = true ∧ (s.sec 0).gateStart = some 99999999 ∧
        99999999 + sec0.g < s.tickStart + 100000 ∧ 0 < s.secs.length ∧ (s.sec 0).gateCount = 0) ∧
    (∀ n ∈ [1, 65534], 1 ≤ min 65535 (0 + n) ∧ min 65535 (0 + n) < 65535) ∧
    (∀ n ∈ [0, 65535], ¬(1 ≤ min 65535 (0 + n) ∧ min 65535 (0 + n) < 65535)) ∧
    (∀ n ∈ [1, 2, 3], ∀ fault ∈ [true, false],
      let s := withSec run0 (fun d => { d with gateStart := some 99999999, good := n, bad := n, fault := fault })
      s.Ready ∧ (s.sec 0).good = n ∧ (s.sec 0).bad = n ∧ (s.sec 0).fault = fault) := by decide +kernel

/-- Section 0 in a state, its timer run out. -/
def secDue (st : SectionState) : State :=
  withSec (timerDue run0 (.sectionTimer 0)) (fun d => { d with state := some st, timer := some hdl })

theorem test_met_RecloseDelayAndAllowanceEnd :
    ((secDue .recloseWait).Ready ∧ (secDue .recloseWait).secTimerDue 0 .recloseWait = true) ∧
    (secDue .reclosing).secTimerDue 0 .reclosing = true ∧ (secDue .restoring).secTimerDue 0 .restoring = true := by
  decide +kernel

theorem test_met_BreakerReportsAreTaken :
    (∀ v ∈ [0, 1, 2, 15], ∀ resent ∈ [true, false],
      ∀ st ∈ [none, some SectionState.isolated, some .recloseWait, some .lockedOut, some .reclosing, some .restoring,
        some .energized],
      let s := withSec (reported run0 [.point 0 v]) (fun d => { d with state := st, resent := resent });
      s.Ready ∧ s.listening = true ∧ s.cfg.role = .station ∧ s.slc.reports = .point 0 v :: [] ∧ s.slc.link = .up ∧
        s.pointUse 0 = .breaker 0 ∧ s.scfg 0 = some sec0 ∧ sec0.owner = true ∧
        0 < s.secs.length ∧ (s.sec 0).state = st ∧ (s.sec 0).resent = resent) ∧
    (∀ x ∈ [([400, 1000], 2), ([399, 400], 1)],
      (x.1.filter (fun t => decide (run0.runTime ≤ t + 600))).length = x.2) ∧
    (run0.askSecTimer 0 sec0.rd).2 = true ∧ ((noTimers run0).askSecTimer 0 sec0.rd).2 = false := by decide +kernel

/-- A DIRECTIVE with serial 1 from the console at place 0 meets the premises of its effect. -/
theorem ordered (s : State) (d : Directive) (h : s.Ready ∧ s.cfg.role = .station ∧ s.cfl.start = .running ∧
    s.HeadIs { sender := 5, target := s.cfg.node, body := .directive 1 d } [] ∧ s.consoleIndex 5 = some 0 ∧
    s.storedAnswer 0 1 = none ∧ s.cfg.consoles[0]? = some ⟨5, 3⟩ ∧ d.level ≤ 3 ∧ d.zeroGiven = false) :
    s.Ordered 5 1 0 d [] :=
  ⟨h.1, h.2.1, h.2.2.1, h.2.2.2.1, h.2.2.2.2.1, h.2.2.2.2.2.1, ⟨_, h.2.2.2.2.2.2.1, h.2.2.2.2.2.2.2.1⟩,
    h.2.2.2.2.2.2.2.2⟩

/-- The node with a DIRECTIVE from that console at the head of its receive queue. -/
def told (s : State) (d : Directive) : State := heard s (toMe 5 (.directive 1 d))

/-- An own incident of this node. -/
def inc0 : Incident :=
  { id := ⟨2, 1⟩, kind := .trackIntrusion, severity := 3, state := .opened, loc := Loc.none, cover := some ⟨100, 300⟩,
    effects := ⟨false, true, false⟩, raised := some 400000, ackBy := none, own := true, admittedAt := 900,
    clearedAt := none, timer := none, refreshDue := some 1000, lastHeard := none }

/-- The node with incidents in its table. -/
def withIncs (s : State) (es : List Incident) : State := { s with inu := { s.inu with table := es } }

theorem test_met_SectionsIsolateAndRestore :
    (told run0 (.isolateSection 10)).Ordered 5 1 0 (.isolateSection 10) [] ∧
    (told run0 (.restoreSection 10)).Ordered 5 1 0 (.restoreSection 10) [] ∧
    run0.secIndex 12 = none ∧ (run0.secIndex 11 = some 1 ∧ run0.owns 1 = false) ∧
    (run0.secIndex 10 = some 0 ∧ run0.owns 0 = true) ∧
    (let s := withSec run0 (fun d => { d with state := some .energized });
      (s.sec 0).state ≠ some .isolated ∧ (s.sec 0).state ≠ some .lockedOut) ∧
    (withIncs run0 [inc0]).cutCovers 0 = true ∧
    (∀ st ∈ [SectionState.isolated, .lockedOut],
      let s := withSec (told run0 (.restoreSection 10)) (fun d => { d with state := some st });
      (s.sec 0).state = some st ∧ s.cutCovers 0 = false ∧ ((s.withRx []).askSecTimer 0 30).2 = true ∧
        (((noTimers s).withRx []).askSecTimer 0 30).2 = false) :=
  ⟨ordered _ _ (by decide +kernel), ordered _ _ (by decide +kernel), by decide +kernel⟩

/-! ## Witnesses: start arbitration -/

/-- Section 0's arbiter records changed. -/
def withArb (s : State) (f : Arb → Arb) : State := s.updArb 0 f

/-- A counted start of node 3 whose window ends now. -/
def counted0 : Counted := { node := 3, platform := 0, serial := 6, demand := 500, endTime := 1000 }

/-- A queued ask of node 3, unheard for 30. -/
def ask0 : QueuedAsk :=
  { node := 3, platform := 0, serial := 7, ready := none, demand := 900, credit := 100, overrideFlag := false, heard := some 970 }

theorem test_met_StartsAndAsksLeave :
    (let s := withArb run0 (fun a => { a with counted := [counted0] });
      s.Ready ∧ (s.arb 0).counted.find? (fun x => decide (x.endTime ≤ s.runTime)) = some counted0) ∧
    (let x : Taken := { platform := 0, serial := 1, demand := 500, takenAt := 900, origin := .remote };
      let s := withArb run0 (fun a => { a with taken := [x] });
      (s.arb 0).taken.find? (fun y => decide (y.takenAt + s.cfg.sw ≤ s.runTime)) = some x) ∧
    (let s := withArb run0 (fun a => { a with queue := [ask0] });
      (s.arb 0).queue.find? (fun x => match x.heard with | some t => decide (t + 30 ≤ s.runTime) | none => false) =
        some ask0) := by decide +kernel

/-- Platform 0's asker record on the section that node 1 owns. -/
def asking (f : Asker → Asker) : State :=
  run0.updAsker 0 (fun _ => f { Asker.cold with sec := 11, serial := 7, route := .remote, demand := 900, waitEnd := some 1000 })

theorem test_met_AsksGoAgain :
    (let s := asking (fun a => { a with phase := .retryWait });
      s.Ready ∧ s.secIndex (s.asker 0).sec = some 1 ∧ s.reachedOpt (s.asker 0).waitEnd = true ∧
        (s.asker 0).phase = .retryWait ∧ (s.asker 0).route = .remote) ∧
    ((asking (fun a => { a with phase := .retryWait, route := .standIn })).asker 0).route ≠ .remote ∧
    (∀ b ∈ [true, false],
      let s := asking (fun a => { a with phase := .waiting, deferred := b });
      (s.asker 0).phase = .waiting ∧ (s.asker 0).deferred = b) := by decide +kernel

/-- POWER_ASK of node 3 for its platform 0 with serial 7. -/
def powerAsk0 : PowerAskBody :=
  { sec := 10, platform := 0, serial := 7, ready := none, overrideFlag := false, demand := 900, credit := 100 }

theorem test_met_PowerAskIsAnswered :
    (let s := heard run0 (toMe 3 (.powerAsk powerAsk0));
      s.Ready ∧ s.cfg.role = .station ∧ s.cfl.start = .running ∧ s.HeadIs (toMe 3 (.powerAsk powerAsk0)) [] ∧
        s.sharedWith 3 10 = some 0 ∧ (s.arb 0).counted.any (Counted.is 3 0 7) = false ∧
        (s.arb 0).queue.find? (QueuedAsk.is 3 0 7) = none ∧
        ((s.arb 0).queue.filter (fun a => !a.ofPair 3 0)).length < 6) ∧
    ((withArb run0 (fun a => { a with counted := [{ counted0 with serial := 7 }] })).arb 0).counted.any
      (Counted.is 3 0 7) = true ∧
    (let s := withArb run0 (fun a => { a with queue := (List.range 6).map (fun k => { ask0 with platform := k + 1 }) });
      (s.arb 0).queue.find? (QueuedAsk.is 3 0 7) = none ∧ 6 ≤ ((s.arb 0).queue.filter (fun a => !a.ofPair 3 0)).length) ∧
    (let s := withArb run0 (fun a => { a with queue := [ask0] });
      (s.arb 0).queue.find? (QueuedAsk.is 3 0 7) = some ask0 ∧ (powerAsk0.overrideFlag && !ask0.overrideFlag) = false) ∧
    (let b := { powerAsk0 with overrideFlag := true };
      let s := heard (withArb run0 (fun a => { a with queue := [ask0] })) (toMe 3 (.powerAsk b));
      s.Ready ∧ s.HeadIs (toMe 3 (.powerAsk b)) [] ∧ (s.arb 0).counted.any (Counted.is 3 0 7) = false ∧
        (s.arb 0).queue.find? (QueuedAsk.is 3 0 7) = some ask0 ∧ (b.overrideFlag && !ask0.overrideFlag) = true) ∧
    (let s := heard (inState .rebuild) (toMe 3 (.powerAsk powerAsk0));
      s.Ready ∧ s.HeadIs (toMe 3 (.powerAsk powerAsk0)) [] ∧ s.cfl.start ≠ .running) ∧
    run0.sharedWith 1 10 = none := by decide +kernel

theorem test_met_PowerReturnRemoves :
    (let s := heard run0 (toMe 3 (.powerReturn 10 0 7));
      s.Ready ∧ s.cfg.role = .station ∧ s.cfl.start = .running ∧ s.HeadIs (toMe 3 (.powerReturn 10 0 7)) [] ∧
        s.sharedWith 3 10 = some 0) ∧
    (let s := heard run0 (toMe 1 (.powerReturn 10 0 7));
      s.HeadIs (toMe 1 (.powerReturn 10 0 7)) [] ∧ s.sharedWith 1 10 = none) := by decide +kernel

theorem test_met_PowerAnswersReachTheAsker :
    (let s := heard (asking (fun a => { a with phase := .waiting })) (toMe 1 (.powerGrant 11 0 7));
      s.Ready ∧ s.cfg.role = .station ∧ s.cfl.start = .running ∧ s.ownedBy 1 11 = some 1 ∧
        s.HeadIs (toMe 1 (.powerGrant 11 0 7)) [] ∧ s.answerMatches 11 0 7 = true ∧ (s.asker 0).route = .remote) ∧
    (let s := asking (fun a => { a with phase := .holding, origin := some .remote });
      s.answerMatches 11 0 7 = false ∧ s.grantHeldAlready 11 0 7 = true) ∧
    (let s := asking (fun a => { a with phase := .waiting });
      s.answerMatches 11 0 8 = false ∧ s.grantHeldAlready 11 0 8 = false) ∧
    (let s := heard (asking (fun a => { a with phase := .waiting })) (toMe 1 (.powerDefer 11 0 7 true));
      s.HeadIs (toMe 1 (.powerDefer 11 0 7 true)) [] ∧ s.answerMatches 11 0 7 = true) := by decide +kernel

theorem test_met_GrantsCountTheNetDemand : 3 < run0.sar.arbs.length ∧ ask0.node ≠ run0.cfg.node ∧
    (withSec run0 (fun d => { d with state := some .energized, im := some 0 })).grantable 0 ask0 = true ∧
    run0.scfg 0 = some sec0 ∧ (run0.arb 0).queue.head? = none ∧
    ((withArb (withSec run0 (fun d => { d with state := some .energized, im := some 0 })) (fun a =>
      { a with queue := [ask0] })).arb 0).queue.head? = some ask0 ∧
    ((withArb run0 (fun a => { a with queue := [ask0] })).arb 0).queue.head? = some ask0 ∧ run0.grantable 0 ask0 = false :=
  by decide +kernel

/-- A step from rest that counts a start granted to node 3. -/
theorem test_met_GrantsCountTheNetDemand_step :
    let live := withSec run0 (fun d => { d with state := some .energized, im := some 0 })
    let s : State := { heard live (toMe 3 (.powerAsk powerAsk0)) with pending := [.powerAsk] }
    (match step s with | .next t => (t.arb 0).counted | _ => []) =
      [] ++ { node := 3, platform := 0, serial := 7, demand := 800, endTime := 1100 } :: [] ∧
    (s.arb 0).counted = [] ∧ s.Quiet ∧ 0 < s.cfg.announce.phraseTimeout := by decide +kernel

/-! ## Witnesses: incidents -/

/-- An incident of node 3. -/
def peer0 : Incident := { inc0 with id := ⟨3, 9⟩, own := false, refreshDue := none, lastHeard := some 100 }

theorem test_met_LevelFollowsItsDefinition :
    (let s : State := { run0 with inu := { Inu.cold with table := [inc0, peer0], level := 3 } };
      s.Quiet ∧ s.LevelFits ∧ (∃ t, step s = .next t) ∧ inc0 ∈ s.inu.table ∧ s.bearsOnLevel inc0 = true) ∧
    (atConsole run0).cfg.role = .console :=
  ⟨⟨by decide +kernel, by decide +kernel, ⟨_, rfl⟩, by decide +kernel, by decide +kernel⟩, rfl⟩

theorem test_met_PeerAndClearedEntriesAge :
    (∀ t ∈ [400, 401],
      let e := { inc0 with state := .cleared, clearedAt := some t };
      let s := withIncs run0 [e];
      s.Ready ∧ s.inc ⟨2, 1⟩ = some e ∧ e.state = .cleared ∧ e.clearedAt = some t) ∧
    (∀ t ∈ [100, 101],
      let e := { peer0 with lastHeard := some t };
      let s := withIncs run0 [e];
      s.inc ⟨3, 9⟩ = some e ∧ e.own = false ∧ e.state ≠ .cleared ∧ e.lastHeard = some t) := by decide +kernel

theorem test_met_OwnEntriesEscalateAndRefresh :
    (let e := { inc0 with timer := some hdl };
      let s := withIncs (timerDue run0 (.escalation 1)) [e];
      s.Ready ∧ s.inc ⟨s.cfg.node, 1⟩ = some e ∧ s.expiredOpt e.timer = true) ∧
    (let s := withIncs run0 [inc0];
      s.inc ⟨s.cfg.node, 1⟩ = some inc0 ∧ inc0.own = true ∧ inc0.state ≠ .cleared ∧ s.speaking = true ∧
        s.reachedOpt inc0.refreshDue = true) := by decide +kernel

/-- An INCIDENT's body as node 3 sends it. -/
def incBody (node : Nat) (st : IncState) : IncidentBody :=
  { id := ⟨node, 9⟩, kind := .trackIntrusion, severity := 3, state := st, loc := Loc.none, effects := ⟨true, false, false⟩,
    cover := some ⟨100, 300⟩, raised := none, ackBy := none }

/-- An INCIDENT to every node. -/
def incTel (b : IncidentBody) : Telegram := { sender := 3, target := 0, body := .incident b }

theorem test_met_IncidentsAreAdmitted :
    (let s := heard run0 (incTel (incBody 2 .opened));
      s.Ready ∧ s.cfg.role = .station ∧ s.HeadIs (incTel (incBody 2 .opened)) [] ∧ (incBody 2 .opened).id.node = s.cfg.node) ∧
    ((incBody 3 .cleared).id.node ≠ run0.cfg.node ∧ run0.inc ⟨3, 9⟩ = none ∧ run0.reaches none = false) ∧
    (run0.reaches (incBody 3 .opened).cover = true ∧ (withIncs run0 (List.replicate 31 inc0)).inu.table.length < 32) ∧
    (let old := { inc0 with state := .cleared, clearedAt := some 5 };
      let low := { peer0 with id := ⟨3, 8⟩, severity := 2 };
      (withIncs run0 (List.replicate 32 old)).oldestCleared = some old ∧
      (withIncs run0 (List.replicate 32 low)).oldestCleared = none ∧
      (withIncs run0 (List.replicate 32 low)).lowestPeer 3 = some low ∧
      (withIncs run0 (List.replicate 32 low)).lowestPeer 2 = none ∧
      (withIncs run0 (List.replicate 32 low)).inc ⟨3, 9⟩ = none ∧ 32 ≤ (withIncs run0 (List.replicate 32 low)).inu.table.length) ∧
    (∀ st ∈ [IncState.opened, .standing, .acked, .cleared],
      let e := { peer0 with state := st };
      (withIncs run0 [e]).inc (incBody 3 .opened).id = some e ∧ e.state = st) ∧
    (peer0.severity < ({ incBody 3 .acked with severity := 4 } : IncidentBody).severity ∧
      ({ incBody 3 .acked with severity := 3 } : IncidentBody).severity ≤ peer0.severity) ∧
    (let s := heard (atConsole run0) (incTel (incBody 3 .opened));
      s.Ready ∧ s.cfg.role = .console ∧ s.lbc.rx = rcv (incTel (incBody 3 .opened)) :: [] ∧ s.inc ⟨3, 9⟩ = none) := by
  decide +kernel

theorem test_met_IncidentsAreAcknowledged :
    (told run0 (.ackIncident ⟨2, 1⟩)).Ordered 5 1 0 (.ackIncident ⟨2, 1⟩) [] ∧
    (told run0 (.clearIncident ⟨2, 1⟩)).Ordered 5 1 0 (.clearIncident ⟨2, 1⟩) [] ∧
    (3 ≠ run0.cfg.node ∧ 2 = run0.cfg.node) ∧ (run0.inc ⟨2, 1⟩).filter (·.own) = none ∧
    (∀ st ∈ [IncState.opened, .standing, .acked, .cleared],
      let e := { inc0 with state := st };
      ((withIncs run0 [e]).inc ⟨2, 1⟩).filter (·.own) = some e) :=
  ⟨ordered _ _ (by decide +kernel), ordered _ _ (by decide +kernel), by decide +kernel⟩

/-- What DECLARE_INCIDENT declares. -/
def declared : DeclareArgs := { severity := 1, effects := ⟨false, false, true⟩, loc := Loc.none, cover := none }

theorem test_met_OperatorIncidentsAndOverflow :
    (told run0 (.declareIncident declared)).Ordered 5 1 0 (.declareIncident declared) [] ∧
    (let d : Directive := .declareIncident { declared with severity := 8 }; (told run0 d).Ordered 5 1 0 d []) ∧
    run0.cfg.consoles[0]? = some ⟨5, 3⟩ ∧ (told run0 .clearOverflow).Ordered 5 1 0 .clearOverflow [] :=
  ⟨ordered _ _ (by decide +kernel), ordered _ _ (by decide +kernel), rfl, ordered _ _ (by decide +kernel)⟩

/-! ## Witnesses: announcements -/

/-- A request for template 0. -/
def req0 : Request :=
  { num := 1, template := 0, priority := 2, zones := 1#5, slots := [0, 0, 0, 0], repeatCount := 0, interval := 0,
    notBefore := some 1000, waiting := true, sources := [.console 5], time := 900, joined := 0, cursor := 0,
    leadIn := false, stopping := false }

theorem test_met_WakeTimerEndsWaits :
    let s : State := { timerDue run0 .wake with anu := { Anu.cold with queue := [req0], wake := some hdl } }
    s.Ready ∧ s.anu.wake = some hdl ∧ s.expired hdl = true := by decide +kernel

/-- The node with the player link in a state, and READY at a level. -/
def player (x : PlayerState) (ready : Bool) : State :=
  { timerDue run0 .player with
    anu := { Anu.cold with
      player := x, playing := some req0, fifo := [{ code := 7, num := 1, element := 0, place := 0 }], playerTimer := some hdl }
    pins := { Pins.cold with ready := ready } }

theorem test_met_PlayerLinkMoves :
    ∀ x ∈ [PlayerState.idle, .awaitFall, .awaitRise, .mute], ∀ b ∈ [true, false],
      let s := player x b;
      s.Ready ∧ s.pins.ready = b ∧ s.anu.player = x ∧ s.anu.playing = some req0 ∧ s.anu.fifo ≠ [] ∧
        s.anu.playerTimer = some hdl ∧ s.expiredOpt s.anu.playerTimer = true ∧
        ({ s with anu := { s.anu with playerTimer := none, untimed := true } } : State).anu.playerTimer = none := by
  decide +kernel

/-! ## Witnesses: the line bus -/

theorem test_met_TelegramsReadBack :
    (toMe 1 (.planBlock 255 8 (List.replicate 8 entry0))).fits ∧ (toMe 5 (.directive 1 (.dayStart 9999999))).fits ∧
      (handover 255).fits ∧ (incTel (incBody 32 .opened)).fits := by
  simp [Telegram.fits, Body.fits, Directive.fits, PlanEntry.fits, SentEntry.fits, IncId.fits, Loc.fits, Span.fits, optAll,
    toMe, handover, incTel, incBody, entry0, carried0, Loc.none, Body.broadcast, serviceMax]

/-- A telegram waiting in a transmit queue. -/
def item0 : TxItem := { tg := toMe 1 (.renewAsk .up), attempts := 0, backoff := false, probe := false, note := .none }

/-- The node with its transmit queues as given. -/
def queues (a c b : List TxItem) : State :=
  { run0 with lbc := { Lbc.cold with alertQ := a, controlQ := c, bulkQ := b, lastBlockEnd := some 0 } }

theorem test_met_HighestReadyClassStarts :
    (let s := queues [item0] [item0] [item0];
      s.Ready ∧ s.momentAt 50000 = some 100050000 ∧ s.speaking = true ∧ s.lbc.sending = none ∧
        s.startClass 100050000 (min 1000 (bitTimes s.lbc.lastBit 100050000)) = some .alert ∧
        s.headReady .alert 100050000 TelegramClass.alert.gap = true) ∧
    (queues [] [item0] [item0]).startClass 100050000 1000 = some .control ∧
    (queues [] [] [item0]).startClass 100050000 1000 = some .bulk ∧ run0.startClass 100050000 1000 = none ∧
    (queues [] [] [item0]).headReady .bulk 100050000 (TelegramClass.bulk.gap - 1) = false ∧
    (queues [item0] [] []).lbc.queue .alert = item0 :: [] ∧
    (∀ x ∈ [(43, false), (44, true)],
      (queues [{ item0 with attempts := 2, backoff := true }] [] []).headReady .alert 100050000 x.1 = x.2) := by
  decide +kernel

theorem test_met_StartsEnd :
    (∀ c ∈ [TelegramClass.alert, .control, .bulk], ∀ heard ∈ [true, false], ∀ probe ∈ [true, false], ∀ n ∈ [15, 16],
      let x := { item0 with attempts := n, probe := probe };
      let u := queues [x] [x] [x];
      let s : State := { u with lbc := { u.lbc with sending := some (c, heard) } };
      s.Ready ∧ s.momentAt 50000 = some 100050000 ∧ s.lbc.sending = some (c, heard) ∧ s.lbc.queue c = x :: [] ∧
        x.probe = probe) ∧
    (bitTimes 100049953 100050000 < 24 ∧ 24 ≤ bitTimes 100049952 100050000):= by
  decide +kernel

/-- With no drop kept, and with one 600 ds old, the condition may end; a drop of 599 ds before keeps it, beside an old one
too. -/
theorem test_met_StartsEnd_quietEnd :
    (∀ fault ∈ [true, false], ∀ mute ∈ [true, false], ∀ ts ∈ [[], [400], [401], [400, 401]],
      let s : State := { run0 with lbc := { Lbc.cold with faultPresent := fault, mute := mute, dropTimes := ts } };
      s.Ready ∧ s.lbc.faultPresent = fault ∧ s.lbc.mute = mute ∧ s.lbc.dropTimes = ts) ∧
    (∀ ts ∈ [[], [400]], ∀ t ∈ (ts : List Nat), t + 600 ≤ run0.runTime) ∧
    (∀ ts ∈ [[401], [400, 401]], 401 ∈ (ts : List Nat) ∧ run0.runTime < 401 + 600) := by
  decide +kernel

/-- RENEW_ASK from a node to this one. -/
def ask1 (sender : Nat) : Telegram := toMe sender (.renewAsk .up)

theorem test_met_ReceivedTelegramsAreFiltered :
    run0.Ready ∧ run0.momentAt 50000 = some 100050000 ∧ run0.listening = true ∧ isFragment [1, 2, 3] = true ∧
      isFragment [] = true ∧ 12 ≤ bitTimes (100050000 - 24) 100050000 ∧ bitTimes (100050000 - 23) 100050000 < 12 ∧
      (isWhole [0, 0, 0, 0, 0, 0, 0] = true ∧ parseTelegram [0, 0, 0, 0, 0, 0, 0] = none) ∧
      (∀ n ∈ [1, 2, 31], isWhole (emitTelegram (ask1 n)) = true ∧ parseTelegram (emitTelegram (ask1 n)) = some (ask1 n)) ∧
      (ask1 2).sender = run0.cfg.node ∧ (ask1 31).sender ≠ run0.cfg.node ∧
      run0.admits { ask1 31 with target := 3 } = false ∧
      (isWhole (emitTelegram { ask1 31 with target := 3 }) = true ∧
        parseTelegram (emitTelegram { ask1 31 with target := 3 }) = some { ask1 31 with target := 3 }) ∧
      run0.admits (ask1 1) = true ∧ (List.replicate 23 (ask1 1)).length < 24 ∧ 24 ≤ (List.replicate 24 (ask1 1)).length := by
  decide +kernel

theorem test_met_ReceiveQueueHoldsTwentyFour :
    let s : State := { run0 with lbc := { Lbc.cold with rx := List.replicate 24 (rcv (ask1 1)) } }
    (s.Ready ∧ s.momentAt 50000 = some 100050000 ∧ s.listening = true ∧ isWhole (emitTelegram (ask1 1)) = true ∧
      parseTelegram (emitTelegram (ask1 1)) = some (ask1 1) ∧ (ask1 1).sender ≠ s.cfg.node ∧ s.admits (ask1 1) = true ∧
      s.lbc.rx.length = 24) ∧
    (let w : State := { s with cfl := { s.cfl with restart := .ready } };
      w.Ready ∧ w.cfl.restart = .ready ∧ ∃ t, exec .warmStart w = .next t) ∧
    (∃ t, step s = .next t) ∧ (∃ t, exec .powerOn s = .next t) ∧ s.pins.resetLow = false ∧
      ∃ t, exec .resetAssert s = .next t :=
  ⟨by decide +kernel, ⟨by decide, rfl, _, rfl⟩, ⟨_, rfl⟩, ⟨_, rfl⟩, rfl, _, rfl⟩

/-- An ANSWER's body. -/
def answer0 : AnswerBody := { code := 2, serial := 1, result := .done, points := none }

theorem test_met_StatusIsHeard :
    (let t : Telegram := { sender := 1, target := 0, body := .status { run0.statusBody with clock := some 5 } };
      let s := heard { watching (watch1 false 10) with tiu := Tiu.cold } t;
      s.Ready ∧ s.cfg.role = .station ∧ s.HeadIs t [] ∧ s.watch 1 = some (watch1 false 10) ∧ s.tiu.clock = none ∧
        s.cfg.reference = false ∧ 1 ∈ s.neighbours ∧ s.lbc.rx = rcv t :: []) ∧ run0.tiu.clock = some 500000 ∧
    (let s := (((watching (watch1 false 10)).updArb 1 (fun a => { a with standIn := true })).updAsker 0 (fun _ =>
        { Asker.cold with sec := 11, serial := 7, route := .standIn, phase := .queued })).updAsker 1 (fun _ =>
        { Asker.cold with sec := 11, serial := 8, route := .standIn, phase := .retryWait });
      (watch1 false 10).present = false ∧ 1 ∈ s.standInOf 1 ∧ (s.arb 1).standIn = true ∧ 1 < s.sar.arbs.length ∧
        0 ∈ s.askersIn 1 .standIn .queued ∧ 1 ∈ s.askersIn 1 .standIn .retryWait) ∧
    (∀ t ∈ [950, 951],
      let s := watching (watch1 true t);
      s.Ready ∧ s.watch 1 = some (watch1 true t) ∧ (watch1 true t).present = true) ∧
    (heard run0 (toMe 1 (.answer answer0))).lbc.rx = rcv (toMe 1 (.answer answer0)) :: [] ∧
    (∀ target ∈ [0, 7],
      let t : Telegram := { sender := 1, target := target, body := .status { run0.statusBody with clock := some 5 } };
      let s := heard (atConsole { run0 with tiu := Tiu.cold }) t;
      s.Ready ∧ s.cfg.role = .console ∧ s.lbc.rx = rcv t :: [] ∧ t.target = target ∧ s.tiu.clock = none ∧
        s.cfg.node = 2 ∧ s.cfg.reference = false ∧ run0.statusBody.console = false) ∧
    (atConsole run0).tiu.clock = some 500000 ∧
    (heard (atConsole run0) (handover 7)).lbc.rx = rcv (handover 7) :: [] := by decide +kernel

/-- A transfer of two blocks, three entries in the last. -/
def transfer0 : Transfer := { console := 5, planId := 4, blocks := 2, remainder := 3, nextIndex := 0, received := 0, timer := some hdl }

/-- The node receiving that plan, its timer run out. -/
def receiving (x : Transfer) : State :=
  let s := timerDue run0 .plan
  { s with lbc := { s.lbc with transfer := some x, planResult := .inProgress } }

theorem test_met_PlansAreTransferred :
    (∀ n ∈ [1, 64, 65],
      let s := heard run0 (toMe 5 (.planOpen 4 n 7));
      s.Ready ∧ s.cfg.role = .station ∧ s.cfl.start = .running ∧ s.HeadIs (toMe 5 (.planOpen 4 n 7)) [] ∧
        s.consoleIndex 5 ≠ none ∧ s.hasTurnback = true) ∧ run0.consoleIndex 1 = none ∧
    ((receiving { transfer0 with console := 6 }).lbc.planResult = .inProgress ∧
      (receiving { transfer0 with console := 6 }).lbc.transfer = some { transfer0 with console := 6 } ∧ 6 ≠ 5) ∧
    (∀ k ∈ [0, 1],
      let b := Body.planBlock 4 k (List.replicate 8 entry0);
      let s := heard (receiving transfer0) (toMe 5 b);
      s.Ready ∧ s.HeadIs (toMe 5 b) [] ∧ s.planOf 5 4 = some transfer0 ∧ transfer0.timer = some hdl ∧
        (k = 0 → k = transfer0.nextIndex ∧ k < transfer0.blocks - 1)) ∧
    (∀ total ∈ [11, 12],
      let x := { transfer0 with nextIndex := 2, received := 11 };
      let s := heard (receiving x) (toMe 5 (.planClose 4 total));
      s.HeadIs (toMe 5 (.planClose 4 total)) [] ∧ s.planOf 5 4 = some x ∧ (x.blocks - 1) * 8 + x.remainder = 11) ∧
    ((receiving transfer0).lbc.transfer = some transfer0 ∧ (receiving transfer0).expired hdl = true) := by decide +kernel

/-! ## Witnesses: the station link -/

/-- A frame with its CRC. -/
def frame (kind : Byte) (body : Bytes) : Bytes :=
  let b := kind :: byteOf body.length :: body
  b ++ [byteOf (crc8 b)]

theorem test_met_StationLinkIsWatched :
    run0.Ready ∧ parseFrame (frame 4 []) = some .idle ∧ parseFrame (frame 1 [63, 15]) = some (.report (.point 63 15)) ∧
      run0.slc.link = .up ∧ ({ run0 with slc := { run0.slc with link := .lost } } : State).slc.link = .lost ∧
      run0.roleTakes (.point 63 15) = true ∧ (List.replicate 31 Report.sweepBegin).length < 32 ∧
      32 ≤ (reported run0 (List.replicate 32 .sweepBegin)).slc.reports.length ∧ run0.roleTakes .planClear = false ∧
      (∀ t ∈ [970, 971], ({ run0 with slc := { run0.slc with lastValid := t } } : State).Ready) ∧
      970 + 30 ≤ run0.runTime ∧ run0.runTime < 971 + 30 ∧
      (let s := run0.command (.authority 0 true); s.slc.cmds ≠ [] ∧ s.slc.held = []) ∧
      (let x : CmdItem := { cmd := .display 0 [], note := .none };
        let s : State := { run0 with slc := { run0.slc with cmds := List.replicate 32 x, held := [.authority 0 false] } };
        s.slc.cmds = x :: List.replicate 31 x ∧ (List.replicate 31 x).length = 31 ∧ s.slc.held = .authority 0 false :: [] ∧
          (FieldCmd.authority 0 false).urgent = true) := by decide +kernel

theorem test_met_PointsAndSweepsAreTaken :
    (let s := reported run0 [.point 0 1];
      s.Ready ∧ s.slc.reports = .point 0 1 :: [] ∧ s.listening = true ∧ s.pointUse 0 = .breaker 0 ∧
        s.pointUse 2 = .unassigned ∧ s.pointUse 1 = .alarm 0 ∧ s.slc.link = .up ∧ s.cfg.role = .station) ∧
    (let s := atConsole (reported run0 [.point 0 1]);
      s.Ready ∧ s.slc.reports = .point 0 1 :: [] ∧ s.cfg.role = .console) ∧ (inState .loading).listening = false ∧
    (let s : State := { run0 with cfg := { cfg0 with points := [.doorFault 0, .intrusion ⟨100, 200⟩] } };
      s.listening = true ∧ s.pointUse 0 = .doorFault 0 ∧ s.pointUse 1 = .intrusion ⟨100, 200⟩) ∧
    (let s : State := { run0 with slc := { run0.slc with link := .lost, reports := [.point 0 1] } };
      s.Ready ∧ s.slc.reports = .point 0 1 :: [] ∧ s.slc.link = .lost) ∧
    (reported run0 [.sweepBegin]).slc.reports = .sweepBegin :: [] ∧ (inState .configFault).cfl.start = .configFault ∧
    (∀ x ∈ [SweepState.idle, .asked, .sweeping], ∀ b ∈ [true, false],
      let s : State := { run0 with slc := { run0.slc with reports := [.sweepEnd], sweep := x, again := b, waitEnd := some 1000 } };
      s.Ready ∧ s.slc.reports = .sweepEnd :: [] ∧ s.cfl.start ≠ .configFault ∧ s.slc.waitEnd = some 1000) := by
  decide +kernel

theorem test_met_WorkstationOrdersAreTaken :
    ∀ r ∈ [Report.directive 0 1 .fieldQuery, .planClear, .planEntry entry0, .planSend 3 4],
      (reported run0 [r]).Ready ∧ (reported run0 [r]).slc.reports = r :: [] ∧
        (reported (inState .rebuild) [r]).cfl.start ≠ .running ∧
        (∀ n ∈ [0, 511, 512], ∀ o ∈ [none, some { target := 3, planId := 4, stage := .opening : OutPlan }],
          let s := reported (withLaunch run0 (List.replicate n (launch0 5 .pending))) [r]
          let u : State := { s with lbc := { s.lbc with outPlan := o } }
          u.Ready ∧ u.slc.reports = r :: [] ∧ u.ttu.launch.length = n ∧ u.lbc.outPlan = o) := by decide +kernel

/-- A PLAN_ENTRY that finds 512 entries while a plan is being sent is REFUSED (R187). -/
theorem test_planEntryFull :
    let s := reported (withLaunch run0 (List.replicate 512 (launch0 5 .pending))) [.planEntry entry0]
    let o : OutPlan := { target := 3, planId := 4, stage := .opening }
    let u : State := { s with cfg := { s.cfg with role := .console }, lbc := { s.lbc with outPlan := some o } }
    (match exec .planEntry u with
      | .next t => t.slc.cmds.map (·.cmd)
      | _ => []) = [.view 0 0 (.result 2 .refused)] := by decide +kernel

/-! ## Witnesses: directives -/

theorem test_met_DirectivesAreChecked :
    (∀ sender ∈ [1, 5, 6],
      let t := toMe sender (.directive 1 (.isolateSection 10));
      (heard run0 t).Ready ∧ (heard run0 t).cfg.role = .station ∧ (heard run0 t).HeadIs t [] ∧
        (heard (inState .rebuild) t).HeadIs t []) ∧
    (inState .rebuild).cfl.start = .rebuild ∧ run0.cfl.start = .running ∧ run0.consoleIndex 1 = none ∧
    run0.consoleIndex 5 = some 0 ∧ run0.storedAnswer 0 1 = none ∧
    ({ run0 with dck := { run0.dck with lastAnswers := [some answer0] } } : State).storedAnswer 0 1 = some answer0 ∧
    (run0.cfg.consoles[0]? = some ⟨5, 3⟩ ∧ run0.cfg.consoles[1]? = some ⟨6, 1⟩) ∧
    (Directive.unknown 200 []).isUnknown = true ∧ (Directive.isolateSection 10).isUnknown = false ∧
    1 < (Directive.isolateSection 10).level ∧ (Directive.isolateSection 10).level ≤ 3 ∧
    (Directive.declareIncident { declared with severity := 0 }).zeroGiven = true ∧
    (Directive.declareIncident { declared with severity := 0 }).level ≤ 3 ∧ Directive.fieldQuery.level ≤ 3 ∧
    Directive.restartNode.level ≤ 3 ∧ run0.cfl.restart = .idle := by decide +kernel

/-- What INSERT_RUN gives. -/
def insert0 (p : Option Nat) : InsertArgs := { run := 999, dir := .up, origin := 400000, dest := 31, pclass := 3, platform := p }

theorem test_met_DirectivesActOnRecords :
    (told run0 (.holdTrain 101 none)).Ordered 5 1 0 (.holdTrain 101 none) [] ∧
    (told run0 (.releaseTrain 101 none)).Ordered 5 1 0 (.releaseTrain 101 none) [] ∧
    (told run0 (.withdrawRun 101 none)).Ordered 5 1 0 (.withdrawRun 101 none) [] ∧
    (∀ p : Option Nat, p = none ∨ p = some 0 → (told run0 (.insertRun (insert0 p))).Ordered 5 1 0 (.insertRun (insert0 p)) []) ∧
    run0.platformCount ≤ 2 ∧ 0 < run0.platformCount ∧ run0.runCarried 999 = false ∧
    (run0.insertBarred { insert0 (some 0) with dir := .down } 0 = true ∧ run0.insertBarred (insert0 (some 0)) 0 = false ∧
      (run0.plat 0).occupied = false) ∧
    (let s := (withRecs run0 [{ rec0 with state := .spare, platform := some 0 }]).updPlat 0 (fun d =>
        { d with occupied := true, occupant := some 9 });
      s.insertBarred (insert0 (some 0)) 0 = false ∧ (s.plat 0).occupied = true ∧ (s.occupantOf 0).isSome = true) ∧
    (let s := run0.updPlat 0 (fun d => { d with occupied := true });
      s.insertBarred (insert0 (some 0)) 0 = false ∧ (s.plat 0).occupied = true ∧ s.occupantOf 0 = none) ∧
    (let r : TrainRec := { rec0 with run := 0, state := .dwelling, platform := some 0 };
      let s := (withRecs run0 [r]).updPlat 0 (fun d => { d with occupied := true, occupant := some 9 });
      s.occupantOf 0 = some r ∧ s.named 0 (some 0) = .record 9 ∧ s.named 0 (some 1) = .unknown) := by
  refine ⟨ordered _ _ (by decide +kernel), ordered _ _ (by decide +kernel), ordered _ _ (by decide +kernel), ?_, by decide +kernel⟩
  rintro p (rfl | rfl) <;> exact ordered _ _ (by decide +kernel)

/-- What ANNOUNCE asks. -/
def announce0 : AnnounceArgs :=
  { template := 0, priority := 1, zones := 1#5, slots := [0, 0, 0, 0], repeatCount := 7, interval := 6000 }

theorem test_met_DirectivesSetModeDayAndAnnounce :
    (∀ p : Option Nat, p = none ∨ p = some 1 ∨ p = some 2 →
      (told run0 (.setMode 2 p)).Ordered 5 1 0 (.setMode 2 p) []) ∧
    (told run0 (.setMode 3 none)).Ordered 5 1 0 (.setMode 3 none) [] ∧
    (told run0 (.dayStart 1079999)).Ordered 5 1 0 (.dayStart 1079999) [] ∧
    (told run0 (.dayStart 1080000)).Ordered 5 1 0 (.dayStart 1080000) [] ∧
    (told run0 (.announce announce0)).Ordered 5 1 0 (.announce announce0) [] ∧
    (let d : Directive := .announce { announce0 with priority := 8 }; (told run0 d).Ordered 5 1 0 d []) ∧
    run0.cfg.consoles[0]? = some ⟨5, 3⟩ ∧
    (told run0 (.cancelAnnounce 0 [0, 0, 0, 0] 1#5)).Ordered 5 1 0 (.cancelAnnounce 0 [0, 0, 0, 0] 1#5) [] ∧
    (run0.platformCount = 2 ∧ templateOf run0.cfg.announce 0 ≠ [] ∧ templateOf run0.cfg.announce 1 = [] ∧
      run0.zonesOk 1#5 = true) := by
  refine ⟨?_, ordered _ _ (by decide +kernel), ordered _ _ (by decide +kernel), ordered _ _ (by decide +kernel),
    ordered _ _ (by decide +kernel), ordered _ _ (by decide +kernel), rfl, ordered _ _ (by decide +kernel),
    by decide +kernel⟩
  rintro p (rfl | rfl | rfl) <;> exact ordered _ _ (by decide +kernel)

/-! ## Checks of single functions and single steps -/

/-- The state after a command. -/
def after (c : Instr) (s : State) : State :=
  match exec c s with
  | .next t => t
  | _ => s

/-- The digits "123456789", the usual check of a CRC. -/
def digits : Bytes := [0x31, 0x32, 0x33, 0x34, 0x35, 0x36, 0x37, 0x38, 0x39]

theorem test_checksums : crc16 digits = 0x29B1 ∧ crc8 digits = 0xF4 ∧ crc32 digits = 0xCBF43926 := by decide +kernel

theorem test_packedDecimal : packRun 101 = [0x10, 0x1C] ∧ packLateness (-7) = [0x00, 0x7D] ∧
    packTime 1079999 = [0x10, 0x79, 0x99, 0x9C] := by decide +kernel

theorem test_tick : (after .tick run0).runTime = 1001 ∧ (after .tick run0).tiu.clock = some 500001 ∧
    (after .tick run0).refMoment = 100100000 := by decide +kernel

/-- A BERTH rise takes the oldest APPROACHING record, and starts its dwell. -/
theorem test_berthRise :
    let live := withSec run0 (fun d => { d with state := some .energized })
    let s := after (.berthRise 0 50000) (withCand (withRecs live [rec0]) 0 true false)
    (s.ttu.table.map (·.state)) = [.dwelling] ∧ (s.plat 0).occupant = some 9 ∧ (s.chan 0).use = .running ∧ s.Quiet := by
  decide +kernel

/-- With the onward section dead it is HELD instead. -/
theorem test_berthRise_dead :
    ((after (.berthRise 0 50000) (withCand (withRecs run0 [rec0]) 0 true false)).ctx 0).holdSet = [.deadSection] := by
  decide +kernel

/-- A HANDOVER of a new train makes its record and sends TAKEOVER. -/
theorem test_handover :
    let s := after .handover (heard run0 (handover 7))
    s.ttu.table.map (·.run) = [101] ∧ s.lbc.controlQ.map (·.tg) =
      [{ sender := 2, target := 1, body := .takeover 101 .up 7 }] ∧ s.lbc.rx = [] ∧ s.hoe.up.expected = some 8 := by
  decide +kernel

/-- A breaker that reports open in ENERGIZED trips the section. -/
theorem test_breakerTrip :
    let s := after .point (withSec (reported run0 [.point 0 0]) (fun d => { d with state := some .energized }))
    (s.sec 0).state = some .recloseWait ∧ (s.sec 0).timer.isSome = true ∧ s.inu.table.map (·.kind) = [.sectionTrip] := by
  decide +kernel

/-- A directive of a console is answered, and its answer stored. -/
theorem test_setMode :
    let s := after .setMode (told run0 (.setMode 1 none))
    s.rge.modes = List.replicate 4 .headway ∧ (s.dck.lastAnswers.getD 0 none).map (·.result) = some .done ∧
      s.lbc.controlQ.length = 1 := by decide +kernel

/-- Bytes from the line are filtered. -/
theorem test_received : (after (.telegramReceived 50000 (emitTelegram (ask1 1))) run0).lbc.rx =
      [{ tg := ask1 1, bytes := emitTelegram (ask1 1), time := 1000, stamp := some 500000 }] ∧
    (after (.telegramReceived 50000 [0, 0, 0, 0, 0, 0, 0]) run0).lbc.discards = 1 := by decide +kernel

/-- Stand-in moves every WAITING ask before the queue is tested: the older ask, of the higher platform, is granted
(R105). -/
theorem test_standIn :
    let ask := fun (serial ready : Nat) =>
      ({ Asker.cold with sec := 11, serial := serial, route := .remote, phase := .waiting, ready := some ready } : Asker)
    let live := (run0.updSec 1 (fun d => { d with state := some .energized })).updArb 1 (fun a => { a with standIn := false })
    let s := (live.updAsker 0 (fun _ => ask 7 400)).updAsker 1 (fun _ => ask 8 300)
    ((s.beginStandIn 1).arb 1).counted.map (·.platform) = [1] ∧ ((s.beginStandIn 1).arb 1).queue.map (·.platform) = [0] := by
  decide +kernel

/-- A load of 0 on a held channel sets nothing: its owner is given the expiry in the same event (R150). -/
theorem test_reloadZero :
    let s := run0.updChan 5 (fun c => { c with use := .running, owner := some .player, tag := 4, count := 9 })
    (s.reloadTimer hdl 0).tiu = s.tiu ∧ (s.reloadTimer hdl 0).work = [.timerExpired .player] := by decide +kernel

/-- The link that comes back asks its sweep for RESTORE before the report it came with is lost (R181). -/
theorem test_restoreFirst :
    let s : State := { run0 with slc := { run0.slc with link := .lost, reports := List.replicate 32 .sweepBegin } }
    let t := after (.validFrame (frame 1 [0, 1])) s
    t.slc.cmds.map (·.cmd) = [.sweepAsk .restore 0] ∧ t.slc.lostReports = 1 ∧ t.slc.sweep = .asked ∧ t.slc.link = .up := by
  decide +kernel

/-- An urgent command held while a routine head is sent goes ahead of every routine command that has not started, and the
held routine one takes no place before it (R185, R186). -/
theorem test_heldUrgentIsSentNext :
    let x : CmdItem := { cmd := .display 0 [], note := .none }
    let s : State := { run0 with slc := { run0.slc with
      cmds := List.replicate 32 x, held := [.display 1 [], .breaker 10 false] } }
    let t := after .commandFrameSent s
    t.slc.cmds.map (·.cmd) = .breaker 10 false :: List.replicate 31 x.cmd ∧ t.slc.held = [.display 1 []] := by
  decide +kernel

/-- After one refusal every release of a pool timer tells the INU that the condition ends (R155). -/
theorem test_everyReleaseEndsExhaustion :
    let hold := fun (c : Channel) => { c with use := .running, owner := some .player, tag := 4, count := 9 }
    let s := ((run0.updChan 5 hold).updChan 6 hold).refuseTimer.1
    let a := s.releaseTimer { slot := .chan 5, tag := 4 }
    (s.releaseTimer { slot := .chan 5, tag := 5 }).work = s.work ∧
    a.work = s.work ++ [.condEnd .timingExhausted Loc.none] ∧
    (a.releaseTimer { slot := .chan 6, tag := 4 }).work = a.work ++ [.condEnd .timingExhausted Loc.none] := by
  decide +kernel

/-- A POWER_GRANT of another section than that of platform 0's ask goes back to its owner though it carries the serial of
that ask: the record stays ASKING, and the asker record as it is, WAITING or HOLDING (R100). A grant of its own section
is held, and the departure goes on. -/
theorem test_grantOfAnotherSection :
    let ask := fun (id : Nat) (f : Asker → Asker) =>
      (((regulatedAt run0 0 .asking).updSec 0 (fun d => { d with state := some .energized })).updCtx 0 (fun x =>
        { x with outstanding := true, serial := 7 })).updAsker 0 (fun _ =>
        f { Asker.cold with sec := id, serial := 7, route := .remote, phase := .waiting, waitEnd := some 1000 })
    let hear := fun (s : State) => after .powerGrant (heard s (toMe 1 (.powerGrant 11 0 7)))
    (∀ f ∈ [id, fun a : Asker => { a with phase := .holding, origin := some .remote }],
      let t := hear (ask 10 f)
      (t.regulated 0).map (·.state) = some .asking ∧ t.asker 0 = (ask 10 f).asker 0 ∧
        t.lbc.alertQ.map (·.tg) = [{ sender := 2, target := 1, body := .powerReturn 11 0 7 }]) ∧
    (let t := hear (ask 11 id);
      (t.regulated 0).map (·.state) = some .authorized ∧ (t.asker 0).phase = .holding ∧ t.lbc.alertQ = []) := by
  decide +kernel

/-- The cover of run 000 is that of the record that carries it (R110). -/
theorem test_coverOfRun000 :
    ((withRecs run0 [{ rec0 with run := 0, state := .spare, platform := some 0 }]).runCover 0) = some (pointSpan plat0) ∧
      run0.runCover 0 = none := by decide +kernel

/-- What the INU is told of one condition it is told in the order made: the refusal of the reclose delay comes before the
release of a power wait channel that its trip brings about, so the entry ends STANDING (R155). -/
theorem test_refusalBeforeRelease :
    let live := (regulatedAt (noTimers run0) 0 .asking).updSec 0 (fun d => { d with state := some .energized })
    let held := (live.updChan 5 (fun c => { c with use := .running, owner := some (.powerWait 0), tag := 4, count := 9 })).updCtx
      0 (fun x => { x with outstanding := true, powerWait := some hdl })
    let t := after .point (reported held [.point 0 0])
    (t.ctx 0).powerWait = none ∧ (t.inu.table.filter (fun e => e.kind == .timingExhausted)).map (·.state) = [.standing] := by
  decide +kernel

/-- The quiet after a fragment counts from its last bit, so an ALERT head starts 12 bit times after it, at the fragment's
own moment, and a CONTROL head 8 bit times later (R163, R200). -/
theorem test_quietAfterFragment :
    let s := fun (a c : List TxItem) => after (.fragment 50000 [1]) (queues a c [])
    let sending := fun (t : State) => t.lbc.sending.map (·.1)
    (s [] []).lbc.discards = 1 ∧ (s [] []).lbc.lastBit = 100049976 ∧
      sending (after (.transmitStart 50000 12 true) (s [item0] [])) = some .alert ∧
      sending (after (.transmitStart 50015 20 true) (s [] [item0])) = none ∧
      sending (after (.transmitStart 50016 20 true) (s [] [item0])) = some .control ∧
      (after (.fragment 50023 [1]) (s [] [])).lbc.discards = 2 ∧
      (after (.fragment 50024 [1]) (after (.telegramReceived 50001 (emitTelegram (ask1 1))) run0)).lbc.discards = 0 := by
  decide +kernel

/-- A berthed record whose Tr is absent gives no prediction, AUTHORIZED or not (R46). -/
theorem test_berthedWithoutTarget :
    let s := fun (st : TrainState) (tr : Option Nat) =>
      (((withRecs run0 [{ rec0 with state := st, platform := some 0 }]).updPlat 0 (fun d => { d with occupant := some 9 })).updCtx 0
        (fun x => { x with tag := some 9, tr := tr })).berthedPredictions .up 500000
    s .authorized none = [] ∧ s .dwelling none = [] ∧ (s .authorized (some 499000)).map (·.departure) = [500000] ∧
      (s .dwelling (some 500300)).map (·.departure) = [500300] := by decide +kernel

/-- The image that passes takes the node to LISTEN; none takes it to CONFIG_FAULT. -/
theorem test_imageChecked : (after (.imageChecked image0) State.reset).cfl.start = .listen ∧
    (after (.imageChecked []) State.reset).cfl.start = .configFault ∧
    (after (.imageChecked []) State.reset).pins.fault = true := by decide +kernel

/-- No row of the table gives bits. -/
theorem test_noWords : decodeTableWord 16 0 = none ∧ run0.withFetchWord 16 0 = run0 := ⟨rfl, rfl⟩

end Sys2Proof.Tests
end

section
/-! PROOFS. What StepKeepsPlaces names, block by block, and that every operation of the model keeps it: one lemma for
each operation, in the order of the model's files. A lemma about an operation that is made of others is the chain of
their lemmas. -/

namespace Sys2Proof.Machine

open Sys2Proof

/-! ## The places, block by block -/

/-- The train table and the launch and staging lists are within their places (R1, R15, R17). -/
structure Ttu.InPlaces (t : Ttu) : Prop where
  table : t.table.length ≤ tableRoom
  launch : t.launch.length ≤ launchRoom
  staging : t.staging.length ≤ launchRoom

/-- The histories of a direction are within their places (R49). -/
structure HoeDir.InPlaces (h : HoeDir) : Prop where
  sent : h.sent.length ≤ historyRoom
  received : h.received.length ≤ historyRoom

/-- The histories of both directions are within their places. -/
structure Hoe.InPlaces (h : Hoe) : Prop where
  up : h.up.InPlaces
  down : h.down.InPlaces

/-- The lists of one arbiter are within their places (5.1). -/
structure Arb.InPlaces (a : Arb) : Prop where
  counted : a.counted.length ≤ 3
  taken : a.taken.length ≤ takenRoom
  queue : a.queue.length ≤ askRoom

/-- The announcement queue, the suspension stack and the player FIFO are within their places (R133, R139, R140). -/
structure Anu.InPlaces (a : Anu) : Prop where
  queue : a.queue.length ≤ annRoom
  stack : a.stack.length ≤ stackRoom
  fifo : a.fifo.length ≤ fifoRoom

/-- There are 24 timing channels and 16 coarse places (R149, R154). -/
structure Tiu.InPlaces (t : Tiu) : Prop where
  chans : t.chans.length = 24
  coarse : t.coarse.length = 16

/-- The transmit queues and the times of attempt drops are within their places (Table 9-1, R165). -/
structure Lbc.InPlaces (l : Lbc) : Prop where
  queue : ∀ c : TelegramClass, (l.queue c).length ≤ c.room
  dropTimes : l.dropTimes.length ≤ dropRoom

/-- `State.PlacesFit` with a name for each block's part. -/
structure State.InPlaces (s : State) : Prop where
  cfg : LimitsFit s.cfg
  ttu : s.ttu.InPlaces
  hoe : s.hoe.InPlaces
  secs : ∀ d ∈ s.secs, d.attempts.length ≤ attemptRoom
  sar : ∀ a ∈ s.sar.arbs, a.InPlaces
  inu : s.inu.table.length ≤ incidentRoom
  anu : s.anu.InPlaces
  tiu : s.tiu.InPlaces
  lbc : s.lbc.InPlaces
  slc : s.slc.cmds.length ≤ cmdRoom

theorem State.inPlaces_iff (s : State) : s.InPlaces ↔ s.PlacesFit := by
  constructor
  · rintro ⟨cfg, ttu, ⟨up, down⟩, secs, sar, inu, anu, tiu, lbc, slc⟩
    exact ⟨ttu.table, inu, lbc.queue .alert, lbc.queue .control, lbc.queue .bulk, slc, anu.queue, anu.stack, tiu.chans,
      tiu.coarse, cfg, fun a ha => ⟨(sar a ha).counted, (sar a ha).taken, (sar a ha).queue⟩, ttu.launch, ttu.staging,
      ⟨up.sent, up.received⟩, ⟨down.sent, down.received⟩, anu.fifo, lbc.dropTimes, secs⟩
  · rintro ⟨table, inu, alert, control, bulk, slc, queue, stack, chans, coarse, cfg, arbs, launch, staging,
      ⟨upSent, upReceived⟩, ⟨downSent, downReceived⟩, fifo, dropTimes, secs⟩
    exact
      { cfg := cfg
        ttu := ⟨table, launch, staging⟩
        hoe := ⟨⟨upSent, upReceived⟩, ⟨downSent, downReceived⟩⟩
        secs := secs
        sar := fun a ha => ⟨(arbs a ha).1, (arbs a ha).2.1, (arbs a ha).2.2⟩
        inu := inu
        anu := ⟨queue, stack, fifo⟩
        tiu := ⟨chans, coarse⟩
        lbc := ⟨fun c => by cases c <;> assumption, dropTimes⟩
        slc := slc }

/-! ## Lists of which one element changes -/

/-- What holds of every element, and of the one changed, holds of every element after the change. -/
theorem forall_mem_modify {α : Type} {P : α → Prop} {l : List α} {k : Nat} {f : α → α} (h : ∀ x ∈ l, P x)
    (hf : ∀ x, l[k]? = some x → P (f x)) : ∀ x ∈ l.modify k f, P x := by
  intro x hx
  obtain ⟨i, hi⟩ := List.mem_iff_getElem?.mp hx
  rw [List.getElem?_modify] at hi
  split at hi
  · subst k
    obtain ⟨y, hy, rfl⟩ := Option.map_eq_some_iff.mp hi
    exact hf y hy
  · exact h x (List.mem_of_getElem? (by simpa using hi))

/-- What holds of every element and of the default holds of the element at an index. -/
theorem getD_of_forall_mem {α : Type} {P : α → Prop} {l : List α} {d : α} (h : ∀ x ∈ l, P x) (hd : P d) (k : Nat) :
    P (l.getD k d) := by
  rw [List.getD_eq_getElem?_getD]
  cases hk : l[k]? with
  | none => exact hd
  | some x => exact h x (List.mem_of_getElem? hk)

/-! ## Lists made from lists within their places -/

theorem map_room {α β : Type} {f : α → β} {l : List α} {n : Nat} (h : l.length ≤ n) : (l.map f).length ≤ n := by
  rwa [List.length_map]

theorem filter_room {α : Type} {p : α → Bool} {l : List α} {n : Nat} (h : l.length ≤ n) : (l.filter p).length ≤ n :=
  Nat.le_trans (List.length_filter_le p l) h

theorem filterMap_room {α β : Type} {f : α → Option β} {l : List α} {n : Nat} (h : l.length ≤ n) :
    (l.filterMap f).length ≤ n := Nat.le_trans (List.length_filterMap_le f l) h

theorem drop_room {α : Type} {k : Nat} {l : List α} {n : Nat} (h : l.length ≤ n) : (l.drop k).length ≤ n := by
  rw [List.length_drop]
  omega

theorem dropLast_room {α : Type} {l : List α} {n : Nat} (h : l.length ≤ n) : l.dropLast.length ≤ n := by
  rw [List.length_dropLast]
  omega

/-! ## Changes inside one block -/

theorem Lbc.InPlaces.setQueue {l : Lbc} (h : l.InPlaces) {c : TelegramClass} {q : List TxItem}
    (hq : q.length ≤ c.room) : (l.setQueue c q).InPlaces := by
  refine ⟨fun d => ?_, ?_⟩
  · have hd := h.queue d
    cases c <;> cases d <;> assumption
  · cases c <;> exact h.dropTimes

theorem Lbc.InPlaces.updHead {l : Lbc} (h : l.InPlaces) (c : TelegramClass) (f : TxItem → TxItem) :
    (l.updHead c f).InPlaces := by
  have hc := h.queue c
  unfold Lbc.updHead
  split
  · exact h
  · next x xs hq => exact h.setQueue (by simpa [hq] using hc)

theorem Lbc.InPlaces.popHead {l : Lbc} (h : l.InPlaces) (c : TelegramClass) : (l.popHead c).InPlaces :=
  h.setQueue (by have := h.queue c; rw [List.length_drop]; omega)

/-- A STATUS that takes a queued one's place leaves the queue as long as it was. -/
theorem replaceStatus_length (x : TxItem) (l q : List TxItem) (h : replaceStatus x l = some q) :
    q.length = l.length := by
  induction l generalizing q with
  | nil => cases h
  | cons i is ih =>
    unfold replaceStatus at h
    split at h
    · cases h; rfl
    · obtain ⟨r, hr, rfl⟩ := Option.map_eq_some_iff.mp h
      simp [ih r hr]

namespace State.InPlaces

variable {s : State}

/-! ## Reading -/

theorem arb (h : s.InPlaces) (k : Nat) : (s.arb k).InPlaces :=
  getD_of_forall_mem h.sar ⟨by decide, by decide, by decide⟩ k

theorem attempts (h : s.InPlaces) (k : Nat) : (s.sec k).attempts.length ≤ attemptRoom :=
  getD_of_forall_mem h.secs (by decide) k

theorem limit (h : s.InPlaces) {k : Nat} {c : SectionCfg} (hc : s.scfg k = some c) : c.limit ≤ 3 :=
  h.cfg c (List.mem_of_getElem? hc)

theorem hoeDir (h : s.InPlaces) (d : Dir) : (s.hoeDir d).InPlaces := by
  cases d
  · exact h.hoe.up
  · exact h.hoe.down

/-! ## Records and requests (Ops) -/

/-- A change made for each of several things keeps the places when each change does. -/
theorem foldl {α : Type} {g : State → α → State} (hg : ∀ t x, t.InPlaces → (g t x).InPlaces) (h : s.InPlaces)
    (l : List α) : (l.foldl g s).InPlaces := by
  induction l generalizing s with
  | nil => exact h
  | cons x xs ih => exact ih (hg s x h)

theorem post (h : s.InPlaces) (m : Msg) : (s.post m).InPlaces := { h with }

theorem posts (h : s.InPlaces) (ms : List Msg) : (s.posts ms).InPlaces := { h with }

theorem raise (h : s.InPlaces) (k : IncKind) (l : Loc) : (s.raise k l).InPlaces := h.post _

theorem raiseOver (h : s.InPlaces) (k : IncKind) (l : Loc) (c : Option Span) : (s.raiseOver k l c).InPlaces := h.post _

theorem updPlat (h : s.InPlaces) (p : Nat) (f : PlatDyn → PlatDyn) : (s.updPlat p f).InPlaces :=
  { h with ttu := { h.ttu with } }

theorem updCtx (h : s.InPlaces) (p : Nat) (f : Ctx → Ctx) : (s.updCtx p f).InPlaces := { h with }

/-- A change of a section record that lists no more attempts than were listed keeps the places. -/
theorem updSec (h : s.InPlaces) (k : Nat) (f : SecDyn → SecDyn)
    (hf : ∀ d : SecDyn, d.attempts.length ≤ attemptRoom → (f d).attempts.length ≤ attemptRoom := by
      exact fun _ x => x) :
    (s.updSec k f).InPlaces :=
  { h with secs := forall_mem_modify h.secs fun d hd => hf d (h.secs d (List.mem_of_getElem? hd)) }

/-- A change of an arbiter that keeps its lists within their places keeps the places. -/
theorem updArb (h : s.InPlaces) (k : Nat) (f : Arb → Arb) (hf : (s.arb k).InPlaces → (f (s.arb k)).InPlaces) :
    (s.updArb k f).InPlaces := by
  refine { h with sar := forall_mem_modify h.sar fun a ha => ?_ }
  have hk : s.arb k = a := by simp [State.arb, ha]
  exact hk ▸ hf (h.arb k)

theorem updAsker (h : s.InPlaces) (p : Nat) (f : Asker → Asker) : (s.updAsker p f).InPlaces := { h with }

theorem updHoeDir (h : s.InPlaces) (d : Dir) (f : HoeDir → HoeDir) (hf : ∀ x : HoeDir, x.InPlaces → (f x).InPlaces) :
    (s.updHoeDir d f).InPlaces := by
  cases d
  · exact { h with hoe := { h.hoe with up := hf _ h.hoe.up } }
  · exact { h with hoe := { h.hoe with down := hf _ h.hoe.down } }

theorem updRec (h : s.InPlaces) (tag : Nat) (f : TrainRec → TrainRec) : (s.updRec tag f).InPlaces :=
  { h with ttu := { h.ttu with table := by simpa using h.ttu.table } }

theorem moveRec (h : s.InPlaces) (tag : Nat) (a b : TrainState) : (s.moveRec tag a b).InPlaces := h.updRec _ _

/-! ## Timing Unit -/

theorem updChan (h : s.InPlaces) (i : Nat) (f : Channel → Channel) : (s.updChan i f).InPlaces :=
  { h with tiu := { h.tiu with chans := by simpa using h.tiu.chans } }

theorem updPlace (h : s.InPlaces) (i : Nat) (f : CoarsePlace → CoarsePlace) : (s.updPlace i f).InPlaces :=
  { h with tiu := { h.tiu with coarse := by simpa using h.tiu.coarse } }

theorem refuseTimer (h : s.InPlaces) : s.refuseTimer.1.InPlaces :=
  have : ({ s with tiu := { s.tiu with refused := true } } : State).InPlaces := { h with tiu := { h.tiu with } }
  this.raise _ _

theorem requestCoarse (h : s.InPlaces) (o : TimerOwner) (n : Nat) (m : Option Nat) (b : Bool) :
    (s.requestCoarse o n m b).1.InPlaces := by
  unfold State.requestCoarse
  split
  · split
    · exact h.updPlace _ _
    · exact h.refuseTimer
  · exact h.refuseTimer

theorem requestTimer (h : s.InPlaces) (o : TimerOwner) (n : Nat) (m : Option Nat) (b : Bool) :
    (s.requestTimer o n m b).1.InPlaces := by
  unfold State.requestTimer
  split
  · split
    · exact h.updChan _ _
    · exact h.requestCoarse ..
  · split
    · split
      · exact (h.updChan _ _).updChan _ _
      · exact h.requestCoarse ..
    · exact h.refuseTimer

/-- The state that a request for a timer leaves, granted or refused. -/
theorem ofTimer (h : s.InPlaces) {o : TimerOwner} {n : Nat} {m : Option Nat} {b : Bool} {t : State} {x : Option Handle}
    (e : s.requestTimer o n m b = (t, x)) : t.InPlaces := by
  have := h.requestTimer o n m b
  rwa [e] at this

theorem updPairOf (h : s.InPlaces) (i : Nat) (f : Channel → Channel) : (s.updPairOf i f).InPlaces := by
  unfold State.updPairOf
  split
  · exact (h.updChan _ _).updChan _ _
  · exact h.updChan _ _

theorem stopTimer (h : s.InPlaces) (x : Handle) : (s.stopTimer x).InPlaces := by
  unfold State.stopTimer
  split
  · split
    · exact h.updPairOf _ _
    · exact h.updPlace _ _
  · exact h

theorem resumeTimer (h : s.InPlaces) (x : Handle) : (s.resumeTimer x).InPlaces := by
  unfold State.resumeTimer
  split
  · split
    · exact h.updPairOf _ _
    · exact h.updPlace _ _
  · exact h

theorem expireNow (h : s.InPlaces) (i : Nat) : (s.expireNow i).InPlaces := by
  unfold State.expireNow
  split
  · exact h.post _
  · exact h

theorem loadHeld (h : s.InPlaces) (i n : Nat) (m : Option Nat) (b : Bool) : (s.loadHeld i n m b).InPlaces := by
  unfold State.loadHeld
  split
  · exact (h.updChan _ _).updChan _ _
  · exact h.updChan _ _

theorem reloadTimer (h : s.InPlaces) (x : Handle) (n : Nat) (m : Option Nat) (b : Bool) :
    (s.reloadTimer x n m b).InPlaces := by
  unfold State.reloadTimer
  split
  · split
    · split
      · exact h.expireNow _
      · exact h.loadHeld ..
    · exact h.updPlace _ _
  · exact h

theorem endExhaustion (h : s.InPlaces) : s.endExhaustion.InPlaces := by
  unfold State.endExhaustion
  split
  · exact h.post _
  · exact h

theorem releaseTimer (h : s.InPlaces) (x : Handle) : (s.releaseTimer x).InPlaces := by
  unfold State.releaseTimer
  split
  · split
    · exact (h.updPairOf _ _).endExhaustion
    · exact h.updPlace _ _
  · exact h

theorem releaseOpt (h : s.InPlaces) (x : Option Handle) : (s.releaseOpt x).InPlaces := by
  cases x
  · exact h
  · exact h.releaseTimer _

theorem loadDwell (h : s.InPlaces) (p n : Nat) (m : Option Nat) : (s.loadDwell p n m).InPlaces := by
  unfold State.loadDwell
  split
  · exact h
  · exact h.updChan _ _

theorem stopDwell (h : s.InPlaces) (p : Nat) : (s.stopDwell p).InPlaces := h.updChan _ _

theorem takeMark (h : s.InPlaces) (p : Nat) : (s.takeMark p).InPlaces := h.updChan _ _

theorem takeDwellExpiry (h : s.InPlaces) (p : Nat) : (s.takeDwellExpiry p).InPlaces := h.updChan _ _

theorem startStatusPeriod (h : s.InPlaces) : s.startStatusPeriod.InPlaces := h.updChan _ _

theorem tickAll (h : s.InPlaces) : s.tickAll.InPlaces := by
  refine { h with tiu := ?_ }
  simp only [State.tickAll, Tiu.stepClock]
  split
  · exact ⟨by simpa [tickChannels] using h.tiu.chans, by simpa using h.tiu.coarse⟩
  · split <;> exact ⟨by simpa [tickChannels] using h.tiu.chans, by simpa using h.tiu.coarse⟩

theorem setClockFrom (h : s.InPlaces) (n : Nat) (b : StatusBody) : (s.setClockFrom n b).InPlaces := by
  unfold State.setClockFrom
  split
  · split
    · exact { h with tiu := { h.tiu with } }
    · exact h
  · exact h

theorem keepOffset (h : s.InPlaces) (n : Nat) (b : StatusBody) (x : Option Nat) : (s.keepOffset n b x).InPlaces := by
  unfold State.keepOffset
  split
  · dsimp only
    split
    · exact { h with tiu := { h.tiu with } }
    · exact h
  · exact h

theorem trimClock (h : s.InPlaces) : s.trimClock.InPlaces := by
  have done : ∀ t : Tiu, t.InPlaces → ({ s with tiu := { t with offsets := [], trimDue := false } } : State).InPlaces :=
    fun t ht => { h with tiu := { ht with } }
  have move : ∀ (c : Nat) (m : Int), (s.tiu.move c m).InPlaces := by
    intro c m
    unfold Tiu.move
    dsimp only
    split
    · exact { h.tiu with }
    · split <;> exact { h.tiu with }
  unfold State.trimClock
  dsimp only
  split
  · exact done _ h.tiu
  · split
    · exact done _ (move _ _)
    · exact done _ h.tiu

theorem setClockTo (h : s.InPlaces) (t : Nat) : (s.setClockTo t).InPlaces := { h with tiu := { h.tiu with } }

end State.InPlaces

end Sys2Proof.Machine
end

section
/-! PROOFS. The Line Bus Controller, the Station Link Controller and the Train Table Unit keep the places. -/

namespace Sys2Proof.Machine

open Sys2Proof

/-- Taking the entries for a platform leaves the launch list as long as it was. -/
theorem useLaunch_length (carried : Nat → Bool) (p : Nat) (l : List LaunchEntry) :
    (useLaunch carried p l).1.length = l.length := by
  induction l with
  | nil => rfl
  | cons e es ih =>
    unfold useLaunch
    split
    · split <;> simp [ih]
    · simp [ih]

/-- Each staged entry applied makes the launch list longer by one. -/
theorem foldl_insertLaunch_length (staged : List PlanEntry) (l : List LaunchEntry) :
    (staged.foldl (fun l e => insertLaunch { plan := e, state := .pending } l) l).length =
      staged.length + l.length := by
  induction staged generalizing l with
  | nil => simp
  | cons e es ih => rw [List.foldl_cons, ih, insertLaunch_length, List.length_cons]; omega

namespace State.InPlaces

variable {s : State}

/-! ## Line Bus Controller -/

/-- A change of the LBC alone. -/
theorem setLbc (h : s.InPlaces) {l : Lbc} (hl : l.InPlaces) : ({ s with lbc := l } : State).InPlaces :=
  { h with lbc := hl }

theorem stepDrops (h : s.InPlaces) : s.stepDrops.InPlaces := h.setLbc { h.lbc with }

theorem stepDiscards (h : s.InPlaces) : s.stepDiscards.InPlaces := h.setLbc { h.lbc with }

theorem stepOverruns (h : s.InPlaces) : s.stepOverruns.InPlaces := h.setLbc { h.lbc with }

theorem restartGone (h : s.InPlaces) (n : TxNote) : (s.restartGone n).InPlaces := by
  unfold State.restartGone
  split
  · split
    · exact { h with }
    · exact h
  · exact h
  · exact h

theorem noteDropped (h : s.InPlaces) (n : TxNote) : (s.noteDropped n).InPlaces := by
  cases n
  · exact h.restartGone .none
  · exact h.restartGone .restart
  · exact h.setLbc { h.lbc with }

theorem joinQueue (h : s.InPlaces) (x : TxItem) : (s.joinQueue x).InPlaces := by
  unfold State.joinQueue
  dsimp only
  split
  · next hroom => exact h.setLbc (h.lbc.setQueue (by rw [List.length_append, List.length_singleton]; omega))
  · exact h.stepDrops.noteDropped _

theorem placeTelegram (h : s.InPlaces) (x : TxItem) : (s.placeTelegram x).InPlaces := by
  unfold State.placeTelegram
  split
  · split
    · next q hq =>
      have hlen : q.length ≤ TelegramClass.control.room := by
        rw [replaceStatus_length _ _ _ hq]
        exact h.lbc.queue .control
      exact h.setLbc (h.lbc.setQueue (c := .control) hlen)
    · exact h.joinQueue _
  · exact h.joinQueue _

theorem hand (h : s.InPlaces) (t : Telegram) (n : TxNote) (b : Bool) : (s.hand t n b).InPlaces := by
  unfold State.hand
  split
  · split
    · exact h.stepDrops.noteDropped _
    · exact h.placeTelegram _
  · exact h

theorem send (h : s.InPlaces) (target : Nat) (b : Body) (n : TxNote) : (s.send target b n).InPlaces := h.hand ..

theorem lineBit (h : s.InPlaces) (m : Nat) : (s.lineBit m).InPlaces := h.setLbc { h.lbc with }

theorem raiseLineFault (h : s.InPlaces) : s.raiseLineFault.InPlaces :=
  (h.setLbc (l := { s.lbc with faultPresent := true }) { h.lbc with }).raise _ _

theorem endLineFault (h : s.InPlaces) : s.endLineFault.InPlaces :=
  (h.setLbc (l := { s.lbc with faultPresent := false }) { h.lbc with }).post _

theorem attemptDrop (h : s.InPlaces) : s.attemptDrop.InPlaces := by
  have kept : ∀ l : List Nat,
      ({ s with lbc := { s.lbc with dropTimes := l.drop (l.length - dropRoom) } } : State).InPlaces := fun l =>
    h.setLbc { h.lbc with dropTimes := keepLast_room l dropRoom }
  unfold State.attemptDrop
  dsimp only
  split
  · exact (kept _).stepDrops.raiseLineFault
  · exact (kept _).stepDrops

theorem dropAll (h : s.InPlaces) (q : List TxItem) : (s.dropAll q).InPlaces :=
  foldl (fun _ x ht => ht.stepDrops.noteDropped x.note) h q

theorem enterMute (h : s.InPlaces) : s.enterMute.InPlaces := by
  have hd := h.dropAll (s.lbc.alertQ ++ s.lbc.controlQ ++ s.lbc.bulkQ)
  refine State.InPlaces.raiseLineFault (hd.setLbc { hd.lbc with queue := ?_ })
  intro c
  cases c <;> exact Nat.zero_le _

theorem echoHeard (h : s.InPlaces) : s.echoHeard.InPlaces := by
  unfold State.echoHeard
  dsimp only
  split
  · refine State.InPlaces.endLineFault (h.setLbc { h.lbc with queue := ?_ })
    intro c
    cases c
    · exact h.lbc.queue .alert
    · simpa [Lbc.queue] using h.lbc.queue .control
    · exact h.lbc.queue .bulk
  · exact h.setLbc { h.lbc with }

theorem beginSending (h : s.InPlaces) (c : TelegramClass) (m : Nat) : (s.beginSending c m).InPlaces :=
  { h with lbc := { h.lbc.updHead c _ with } }

theorem endSending (h : s.InPlaces) : s.endSending.InPlaces := { h with lbc := { h.lbc with } }

theorem backOff (h : s.InPlaces) (c : TelegramClass) : (s.backOff c).InPlaces := by
  unfold State.backOff
  split
  · exact h
  · split
    · exact (h.setLbc (h.lbc.popHead c)).attemptDrop.noteDropped _
    · exact h.setLbc (h.lbc.updHead c _)

theorem transmit (h : s.InPlaces) (m q : Nat) (b : Bool) : (s.transmit m q b).InPlaces := by
  unfold State.transmit
  dsimp only
  split
  · split
    · split
      · exact ((h.beginSending _ _).lineBit _).echoHeard
      · exact (h.beginSending _ _).lineBit _
    · exact h
  · exact h

theorem handStage (h : s.InPlaces) (o : OutPlan) : (s.handStage o).InPlaces := by
  have h1 : ({ s with lbc := { s.lbc with outPlan := some o } } : State).InPlaces := h.setLbc { h.lbc with }
  unfold State.handStage
  dsimp only
  split <;> exact h1.send ..

theorem planSent (h : s.InPlaces) : s.planSent.InPlaces := by
  unfold State.planSent
  split
  · exact h
  · split
    · exact h.handStage _
    · exact h.setLbc { h.lbc with }

theorem noteSent (h : s.InPlaces) (n : TxNote) : (s.noteSent n).InPlaces := by
  cases n
  · exact h.restartGone .none
  · exact h.restartGone .restart
  · exact h.planSent

theorem sentWhole (h : s.InPlaces) (m : Nat) : (s.sentWhole m).InPlaces := by
  unfold State.sentWhole
  split
  · exact h
  · next c _ _ =>
    split
    · exact h
    · have h1 := h.endSending.lineBit m
      have h2 := h1.setLbc (h1.lbc.popHead c)
      dsimp only
      split
      · refine State.InPlaces.noteSent ?_ _
        exact h2.setLbc { h2.lbc with }
      · exact h2.noteSent _

theorem collide (h : s.InPlaces) (m : Nat) : (s.collide m).InPlaces := by
  unfold State.collide
  split
  · exact h
  · exact (h.endSending.lineBit _).backOff _

theorem faultEcho (h : s.InPlaces) : s.faultEcho.InPlaces := by
  unfold State.faultEcho
  split
  · next c _ =>
    split
    · exact h
    · have h1 := h.endSending
      have h2 := h1.backOff c
      have h3 := h2.setLbc (l := { (s.endSending.backOff c).lbc with
        echoFaults := (s.endSending.backOff c).lbc.echoFaults + 1 }) { h2.lbc with }
      dsimp only
      split
      · exact h1.setLbc (h1.lbc.popHead c)
      · split
        · exact h3.enterMute
        · exact h3
  · exact h

theorem initWatched (h : s.InPlaces) : s.initWatched.InPlaces := h.setLbc { h.lbc with }

theorem updWatch (h : s.InPlaces) (n : Nat) (f : Watched → Watched) : (s.updWatch n f).InPlaces :=
  h.setLbc { h.lbc with }

theorem popRx (h : s.InPlaces) : s.popRx.InPlaces := h.setLbc { h.lbc with }

theorem endTransfer (h : s.InPlaces) (r : PlanResult) : (s.endTransfer r).InPlaces :=
  { h with lbc := { h.lbc with }, ttu := { h.ttu with staging := Nat.zero_le _ } }

/-! ## Station Link Controller -/

/-- A change of the SLC that keeps its command FIFO. -/
theorem setSlc (h : s.InPlaces) {x : Slc} (hx : x.cmds.length ≤ cmdRoom) : ({ s with slc := x } : State).InPlaces :=
  { h with slc := hx }

/-- A command placed where there is room keeps the FIFO within its places. -/
theorem placeBy (h : s.InPlaces) {place : CmdItem → List CmdItem → List CmdItem}
    (hp : ∀ x l, (place x l).length = l.length + 1) (hroom : s.slc.cmds.length < cmdRoom) (c : FieldCmd) (n : TxNote) :
    (s.placeBy place c n).InPlaces := by
  have hcmds : ∀ x, (place x s.slc.cmds).length ≤ cmdRoom := fun x => by rw [hp]; omega
  unfold State.placeBy
  dsimp only
  split
  · exact { h with slc := hcmds _, anu := { h.anu with } }
  all_goals exact h.setSlc (hcmds _)

theorem placeCommand (h : s.InPlaces) (hroom : s.slc.cmds.length < cmdRoom) (c : FieldCmd) (n : TxNote) :
    (s.placeCommand c n).InPlaces := h.placeBy placeCmd_length hroom c n

theorem command (h : s.InPlaces) (c : FieldCmd) : (s.command c).InPlaces := by
  unfold State.command
  split
  · exact h
  · split
    · next hroom => exact h.placeCommand hroom _ _
    · exact h.setSlc h.slc

theorem fillPlaces (h : s.InPlaces) (n : Nat) : (State.fillPlaces n s).InPlaces := by
  induction n generalizing s with
  | zero => exact h
  | succ n ih =>
    unfold State.fillPlaces
    split
    · next hroom =>
      split
      · exact h
      · next c _ =>
        have h1 : ({ s with slc := { s.slc with held := s.slc.held.erase c } } : State).InPlaces := h.setSlc h.slc
        dsimp only
        split
        · exact ih h1
        · exact ih (h1.placeBy placeWaiting_length hroom _ _)
    · exact h

theorem commandSent (h : s.InPlaces) : s.commandSent.InPlaces := by
  have hc := h.slc
  unfold State.commandSent
  split
  · exact h
  · next x xs hx =>
    rw [hx, List.length_cons] at hc
    exact (State.InPlaces.restartGone (h.setSlc (Nat.le_of_succ_le hc)) _).fillPlaces _

theorem view (h : s.InPlaces) (v : ViewContent) (n : TxNote) : (s.view v n).InPlaces := by
  unfold State.view
  split
  · next hroom => exact h.placeCommand hroom _ _
  · refine State.InPlaces.restartGone ?_ _
    exact h.setSlc h.slc

theorem authorityOff (h : s.InPlaces) (p : Nat) : (s.authorityOff p).InPlaces := h.command _

theorem askSweep (h : s.InPlaces) : s.askSweep.InPlaces :=
  have := h.command (.sweepAsk s.slc.reason s.slc.lostReports)
  this.setSlc this.slc

theorem requestSweep (h : s.InPlaces) (r : SweepReason) : (s.requestSweep r).InPlaces := by
  unfold State.requestSweep
  split
  · split
    · refine State.InPlaces.askSweep ?_
      exact h.setSlc h.slc
    · exact h
    · exact h.setSlc h.slc
  · exact h

theorem beginSweep (h : s.InPlaces) : s.beginSweep.InPlaces := h.setSlc h.slc

theorem endSweep (h : s.InPlaces) : s.endSweep.InPlaces := by
  have h1 := h.setSlc (x := { s.slc with sweep := .idle, again := false, waitEnd := none }) h.slc
  unfold State.endSweep
  split
  · dsimp only
    split
    · exact h1.requestSweep _
    · exact h1
  · exact h
  · exact h

theorem sweepOverdue (h : s.InPlaces) : s.sweepOverdue.InPlaces := by
  unfold State.sweepOverdue
  split
  · exact h
  all_goals
    split
    · exact h.askSweep
    · exact h

theorem loseLink (h : s.InPlaces) : s.loseLink.InPlaces := by
  unfold State.loseLink
  split
  · exact h
  · refine (State.InPlaces.post ?_ _).raise _ _
    exact h.setSlc h.slc

theorem restoreLink (h : s.InPlaces) : s.restoreLink.InPlaces := by
  unfold State.restoreLink
  split
  · exact h
  · refine ((State.InPlaces.requestSweep ?_ _).post _).post _
    exact h.setSlc h.slc

theorem joinReports (h : s.InPlaces) (r : Report) : (s.joinReports r).InPlaces := by
  unfold State.joinReports
  split
  · exact h.setSlc h.slc
  · refine State.InPlaces.requestSweep ?_ _
    exact h.setSlc h.slc

theorem setPoint (h : s.InPlaces) (n v : Nat) : (s.setPoint n v).InPlaces := h.setSlc h.slc

theorem updTrack (h : s.InPlaces) (i : Nat) (f : TrackDyn → TrackDyn) : (s.updTrack i f).InPlaces := h.setSlc h.slc

theorem pinChange (h : s.InPlaces) (i m : Nat) (b : Bool) : (s.pinChange i m b).InPlaces := by
  unfold State.pinChange
  split
  · have h1 : ({ s with pins := { s.pins with trk := s.pins.trk.set i b } } : State).InPlaces := { h with }
    dsimp only
    split
    · exact h1.updTrack _ _
    · exact h1
  · exact h

theorem startFilters (h : s.InPlaces) : s.startFilters.InPlaces := by
  unfold State.startFilters
  split
  · exact h.setSlc h.slc
  · exact h

/-! ## Train Table Unit -/

/-- A change of the TTU alone. -/
theorem setTtu (h : s.InPlaces) {t : Ttu} (ht : t.InPlaces) : ({ s with ttu := t } : State).InPlaces :=
  { h with ttu := ht }

/-- A record is created only where the table has room (R1). -/
theorem createRec (h : s.InPlaces) (r : TrainRec) : (s.createRec r).1.InPlaces := by
  unfold State.createRec
  split
  · exact h
  · split
    · exact h
    · next hroom =>
      refine h.setTtu { h.ttu with table := ?_ }
      rw [List.length_append, List.length_singleton]
      omega

/-- The state that a creation request leaves. -/
theorem ofCreate (h : s.InPlaces) {r : TrainRec} {t : State} {x : CreateResult} (e : s.createRec r = (t, x)) :
    t.InPlaces := by
  have := h.createRec r
  rwa [e] at this

theorem removeRec (h : s.InPlaces) (tag : Nat) : (s.removeRec tag).InPlaces := by
  unfold State.removeRec
  split
  · refine State.InPlaces.post ?_ _
    exact h.setTtu { h.ttu with table := filter_room h.ttu.table }
  · exact h

theorem convert (h : s.InPlaces) (p tag : Nat) : (s.convert p tag).InPlaces := by
  unfold State.convert
  split
  · exact h
  · have h1 : ∀ runs : List Nat, (runs.foldl (fun (s : State) run => s.raise .runConflict (Loc.ofRunAt run p))
        { s with ttu := { s.ttu with
          launch := (useLaunch (fun run => s.runCarriedByOther run tag) p s.ttu.launch).1 } }).InPlaces :=
      foldl (fun _ _ ht => ht.raise _ _)
        (h.setTtu { h.ttu with launch := Nat.le_trans (Nat.le_of_eq (useLaunch_length _ _ _)) h.ttu.launch })
    dsimp only
    split
    · split
      · exact ((h1 _).updRec _ _).post _
      · exact (h1 _).updRec _ _
    · exact (h1 _).updRec _ _

theorem setOccupant (h : s.InPlaces) (p : Nat) (t : Option Nat) : (s.setOccupant p t).InPlaces := h.updPlat _ _

theorem occupy (h : s.InPlaces) (p : Nat) (t : Option Nat) : (s.occupy p t).InPlaces := h.updPlat _ _

theorem vacate (h : s.InPlaces) (p : Nat) : (s.vacate p).InPlaces := h.updPlat _ _

theorem takeBerth (h : s.InPlaces) (p : Nat) (c : PlatformCfg) (r : TrainRec) (t : Option Nat) :
    (s.takeBerth p c r t).InPlaces := by
  have h1 := ((h.updRec r.tag (fun x => x.arrive p c t)).setOccupant p (some r.tag)).post (.tookBerth r.tag r.run)
  unfold State.takeBerth
  dsimp only
  split
  · exact h1.moveRec ..
  · split
    · exact h1.convert _ _
    · exact (h1.moveRec ..).post _

theorem unknownArrival (h : s.InPlaces) (p : Nat) (c : PlatformCfg) (t : Option Nat) :
    (s.unknownArrival p c t).InPlaces := by
  have h1 := h.raise .unknownArrival (Loc.ofPlatform p)
  unfold State.unknownArrival
  dsimp only
  split
  · next e =>
    split
    · exact ((h1.ofCreate e).setOccupant _ _).convert _ _
    · exact (h1.ofCreate e).setOccupant _ _
  · next e => exact h1.ofCreate e

theorem riseAt (h : s.InPlaces) (p : Nat) (t : Option Nat) : (s.riseAt p t).InPlaces := by
  have h1 := h.occupy p t
  unfold State.riseAt
  split
  · exact h
  · dsimp only
    split
    · split
      · exact h1.takeBerth ..
      · exact h1.unknownArrival ..
    · exact h1

theorem firstBerthLevel (h : s.InPlaces) (p : Nat) (b : Bool) (t : Option Nat) :
    (s.firstBerthLevel p b t).InPlaces := by
  unfold State.firstBerthLevel
  split
  · split
    · exact h.riseAt _ _
    · exact h
  · split
    · exact h.occupy _ _
    · exact h.vacate _

theorem stage (h : s.InPlaces) (e : PlanEntry) : (s.stage e).InPlaces := by
  have hs := stage_room s e h.ttu.staging
  revert hs
  unfold State.stage
  (repeat' split) <;> exact fun hs => h.setTtu { h.ttu with staging := hs }

theorem clearStaging (h : s.InPlaces) : s.clearStaging.InPlaces := h.setTtu { h.ttu with staging := Nat.zero_le _ }

theorem applyStaging (h : s.InPlaces) : s.applyStaging.1.InPlaces := by
  unfold State.applyStaging
  dsimp only
  split
  · exact h
  · split
    · exact h.setTtu { h.ttu with launch := filter_room h.ttu.launch }
    · next hroom =>
      refine h.setTtu { h.ttu with launch := ?_ }
      rw [foldl_insertLaunch_length]
      omega

theorem purgeLaunch (h : s.InPlaces) : s.purgeLaunch.InPlaces :=
  h.setTtu { h.ttu with launch := filter_room h.ttu.launch }

end State.InPlaces

end Sys2Proof.Machine
end

section
/-! PROOFS. The Announcement Unit, the Start Arbiter and the Section Monitor keep the places. -/

namespace Sys2Proof.Machine

open Sys2Proof

/-- A queue without a number is no longer than it was. -/
theorem dropNumber_room {n k : Nat} {q : List Request} (h : q.length ≤ k) : (dropNumber n q).length ≤ k :=
  filter_room h

/-- A queue without the number of one of its requests is shorter. -/
theorem dropNumber_length_lt {r : Request} {q : List Request} (hr : r ∈ q) : (dropNumber r.num q).length < q.length :=
  List.length_filter_lt_length_iff_exists.mpr ⟨r, hr, by simp⟩

/-- A change of the queue leaves the counted starts. -/
theorem updQueue_counted (s : State) (k : Nat) (f : List QueuedAsk → List QueuedAsk) :
    ((s.updQueue k f).arb k).counted = (s.arb k).counted := by
  simp only [State.arb, State.updQueue, updArb_sar, List.getD_eq_getElem?_getD, List.getElem?_modify_eq]
  cases s.sar.arbs[k]? <;> rfl

namespace State.InPlaces

variable {s : State}

/-! ## Announcement Unit -/

/-- A change of the ANU alone. -/
theorem setAnu (h : s.InPlaces) {a : Anu} (ha : a.InPlaces) : ({ s with anu := a } : State).InPlaces :=
  { h with anu := ha }

theorem stepAnnDropped (h : s.InPlaces) (k : Nat) : (s.stepAnnDropped k).InPlaces := h.setAnu { h.anu with }

theorem stepMuted (h : s.InPlaces) : s.stepMuted.InPlaces := h.setAnu { h.anu with }

theorem dropWake (h : s.InPlaces) : s.dropWake.InPlaces := by
  have h1 := h.releaseOpt s.anu.wake
  unfold State.dropWake
  split
  · exact h
  · exact h1.setAnu { h1.anu with }

/-- A place made for a request is a free one (R133). -/
theorem ofAnnPlace (h : s.InPlaces) {n : Nat} {t : State} (e : s.annPlace n = some t) :
    t.InPlaces ∧ t.anu.queue.length < annRoom := by
  refine ⟨?_, annPlace_room s t n h.anu.queue e⟩
  unfold State.annPlace at e
  split at e
  · cases e; exact h
  · split at e
    · split at e
      · cases e
        refine State.InPlaces.stepAnnDropped ?_ 1
        exact h.setAnu { h.anu with queue := dropLast_room h.anu.queue }
      · cases e
    · cases e

/-- Both branches of a choice keep the places. -/
theorem ite {c : Prop} [Decidable c] {t u : State} (ht : t.InPlaces) (hu : u.InPlaces) :
    (if c then t else u).InPlaces := by
  split <;> assumption

theorem putRequest (h : s.InPlaces) (hroom : s.anu.queue.length < annRoom) (r : Request) : (s.putRequest r).InPlaces :=
  h.setAnu { h.anu with queue := Nat.le_trans (Nat.le_of_eq (insertRequest_length _ _)) hroom }

theorem enqueue (h : s.InPlaces) (r : Request) : (s.enqueue r).1.InPlaces := by
  unfold State.enqueue
  split
  · next e =>
    obtain ⟨ht, hroom⟩ := h.ofAnnPlace e
    exact (ht.putRequest hroom r).dropWake
  · exact h.stepAnnDropped 1

/-- The state that a request leaves, admitted to the queue or not. -/
theorem ofEnqueue (h : s.InPlaces) {r : Request} {t : State} {b : Bool} (e : s.enqueue r = (t, b)) : t.InPlaces := by
  have := h.enqueue r
  rwa [e] at this

theorem dropWaiting (h : s.InPlaces) : s.dropWaiting.InPlaces := by
  refine State.InPlaces.stepAnnDropped ?_ _
  exact h.setAnu { h.anu with queue := filter_room h.anu.queue }

theorem askWake (h : s.InPlaces) (t : Nat) : (s.askWake t).InPlaces := by
  unfold State.askWake
  split
  · next e => exact (h.ofTimer e).setAnu { (h.ofTimer e).anu with }
  · next e => exact (h.ofTimer e).dropWaiting

theorem wakeFor (h : s.InPlaces) (t : Nat) : (s.wakeFor t).InPlaces := by
  unfold State.wakeFor
  split
  · exact h.askWake t
  · next x _ =>
    have h1 := h.reloadTimer x (t - s.runTime) none false
    refine State.InPlaces.ite ?_ h
    exact h1.setAnu { h1.anu with }

theorem wakeExpired (h : s.InPlaces) : s.wakeExpired.InPlaces := by
  have h1 := h.releaseOpt s.anu.wake
  have h2 : ∀ f : Request → Request, ({ s.releaseOpt s.anu.wake with anu := { (s.releaseOpt s.anu.wake).anu with
      queue := (s.releaseOpt s.anu.wake).anu.queue.map f, wake := none, wakeAt := none } } : State).InPlaces :=
    fun f => h1.setAnu { h1.anu with queue := map_room h1.anu.queue }
  unfold State.wakeExpired
  dsimp only
  split
  · exact ((h2 _).askWake _).post _
  · exact (h2 _).post _

theorem compose (h : s.InPlaces) : s.compose.InPlaces := by
  unfold State.compose
  split
  · exact h
  · split
    · exact h
    · exact h.setAnu { h.anu with fifo := putElements_room _ _ _ _ _ _ h.anu.fifo }

theorem startRequest (h : s.InPlaces) (r : Request) : (s.startRequest r).InPlaces := by
  unfold State.startRequest
  refine (State.InPlaces.compose ?_).post _
  refine h.setAnu { h.anu with fifo := ?_ }
  dsimp only
  split
  · exact (by decide : 1 ≤ fifoRoom)
  · exact Nat.zero_le _

theorem resumeTop (h : s.InPlaces) (r : Request) : (s.resumeTop r).InPlaces := by
  refine State.InPlaces.startRequest ?_ r
  exact h.setAnu { h.anu with stack := drop_room h.anu.stack }

theorem startHead (h : s.InPlaces) (r : Request) : (s.startHead r).InPlaces := by
  refine State.InPlaces.startRequest ?_ r
  exact h.setAnu { h.anu with queue := dropNumber_room h.anu.queue }

theorem select (h : s.InPlaces) : s.select.InPlaces := by
  unfold State.select
  split
  · exact h
  · split
    · split
      · exact h.startHead _
      · exact h.resumeTop _
    · exact h.resumeTop _
    · exact h.startHead _
    · exact h

theorem leaveSlot (h : s.InPlaces) : s.leaveSlot.InPlaces := by
  have cleared : ∀ {t : State} (x : Option Handle) (u : Bool), t.InPlaces →
      ({ t with anu := { t.anu with playing := none, fifo := [], playerTimer := x, untimed := u } } : State).InPlaces :=
    fun _ _ ht => ht.setAnu { ht.anu with fifo := Nat.zero_le _ }
  unfold State.leaveSlot
  dsimp only
  split
  · exact cleared _ _ (h.releaseOpt _)
  · exact cleared _ _ h

theorem endCancelled (h : s.InPlaces) : s.endCancelled.InPlaces := h.leaveSlot.post _

theorem finishRequest (h : s.InPlaces) (r : Request) : (s.finishRequest r).InPlaces := by
  have h1 := h.leaveSlot
  unfold State.finishRequest
  dsimp only
  split
  · exact h1.post _
  · split
    · next e =>
      split
      · exact ((h1.ofEnqueue e).wakeFor _).post _
      · exact (h1.ofEnqueue e).post _
    · next e => exact (h1.ofEnqueue e).post _

theorem preempt (h : s.InPlaces) (r x : Request) : (s.preempt r x).InPlaces := by
  have pushed : ∀ {t : State} (l : List Request), t.InPlaces → ({ t with anu := { t.anu with
      stack := l.take stackRoom, fifo := [], queue := dropNumber x.num t.anu.queue } } : State).InPlaces :=
    fun l ht => ht.setAnu
      { stack := List.length_take_le _ _
        fifo := Nat.zero_le _
        queue := dropNumber_room ht.anu.queue }
  unfold State.preempt
  dsimp only
  split
  · exact (pushed _ (h.stepAnnDropped 1)).startRequest x
  · exact (pushed _ h).startRequest x

theorem boundary (h : s.InPlaces) : s.boundary.InPlaces := by
  unfold State.boundary
  split
  · exact h.post _
  · split
    · exact h.endCancelled
    · split
      · exact h.finishRequest _
      · split
        · split
          · exact h.preempt _ _
          · exact h.post _
        · exact h.post _

theorem loadPlayer (h : s.InPlaces) (n : Nat) : (s.loadPlayer n).InPlaces := by
  have h1 := (h.releaseOpt s.anu.playerTimer).requestTimer .player n none false
  exact h1.setAnu { h1.anu with }

theorem reloadPlayer (h : s.InPlaces) (n : Nat) : (s.reloadPlayer n).InPlaces := by
  unfold State.reloadPlayer
  split
  · exact h.reloadTimer ..
  · exact h

theorem releasePlayer (h : s.InPlaces) : s.releasePlayer.InPlaces :=
  have h1 := h.releaseOpt s.anu.playerTimer
  h1.setAnu { h1.anu with }

theorem refill (h : s.InPlaces) : s.refill.InPlaces := by
  unfold State.refill
  split
  · exact h.compose
  · exact h

/-- The player FIFO without its first phrases is no longer than it was. -/
theorem fifo_drop (h : s.InPlaces) (n : Nat) : (s.anu.fifo.drop n).length ≤ fifoRoom :=
  drop_room h.anu.fifo

theorem sendPhrase (h : s.InPlaces) (r : Request) (p : Phrase) : (s.sendPhrase r p).InPlaces := by
  unfold State.sendPhrase
  refine (State.InPlaces.refill ?_).loadPlayer 5
  exact { h with anu := { h.anu with fifo := h.fifo_drop 1 } }

theorem discardPhrase (h : s.InPlaces) : s.discardPhrase.InPlaces := by
  unfold State.discardPhrase
  refine (State.InPlaces.stepMuted ?_).refill.post _
  exact h.setAnu { h.anu with fifo := h.fifo_drop 1 }

theorem pump (h : s.InPlaces) : s.pump.InPlaces := by
  unfold State.pump
  split
  · exact h
  · split
    · split
      · exact h.finishRequest _
      · exact h
    · split
      · split
        · exact h.sendPhrase _ _
        · split
          · exact h.loadPlayer _
          · exact h
      · exact h
      · exact h
      · exact h.discardPhrase

theorem phraseDone (h : s.InPlaces) (x : PlayerState) : (s.phraseDone x).InPlaces := by
  have h1 := h.releasePlayer
  refine State.InPlaces.post ?_ _
  exact h1.setAnu { h1.anu with }

theorem playerMute (h : s.InPlaces) : s.playerMute.InPlaces := h.raise _ _

theorem readyRises (h : s.InPlaces) : s.readyRises.InPlaces := by
  have h1 : ({ s with pins := { s.pins with ready := true } } : State).InPlaces := { h with }
  unfold State.readyRises
  dsimp only
  split
  · exact h1.pump
  · exact h1
  · exact h1.phraseDone _
  · refine (State.InPlaces.post ?_ _).post _
    exact { h with anu := { h.anu with } }

theorem readyFalls (h : s.InPlaces) : s.readyFalls.InPlaces := by
  have h1 : ({ s with pins := { s.pins with ready := false } } : State).InPlaces := { h with }
  unfold State.readyFalls
  dsimp only
  split
  · refine State.InPlaces.reloadPlayer ?_ _
    exact { h with anu := { h.anu with } }
  all_goals exact h1

theorem playerExpired (h : s.InPlaces) : s.playerExpired.InPlaces := by
  have h1 := h.releasePlayer
  unfold State.playerExpired
  split
  · refine (State.InPlaces.playerMute ?_).post _
    exact h1.setAnu { h1.anu with }
  · exact h.phraseDone _
  · exact h.stepMuted.playerMute.phraseDone _
  · exact h1

theorem mergeQueued (h : s.InPlaces) {r : Request} (hr : r ∈ s.anu.queue) (q : AnnReq) :
    (s.mergeQueued r q).InPlaces := by
  unfold State.mergeQueued
  refine (State.InPlaces.dropWake ?_).post _
  refine h.setAnu { h.anu with queue := ?_ }
  exact Nat.le_trans (Nat.le_of_eq (insertRequest_length _ _)) (Nat.lt_of_lt_of_le (dropNumber_length_lt hr) h.anu.queue)

theorem mergeSuspended (h : s.InPlaces) (r : Request) (q : AnnReq) : (s.mergeSuspended r q).InPlaces := by
  unfold State.mergeSuspended
  dsimp only
  split
  · refine (State.InPlaces.enqueue ?_ _).post _
    exact h.setAnu { h.anu with stack := dropNumber_room h.anu.stack }
  · exact h.setAnu { h.anu with stack := map_room h.anu.stack }

theorem mergePlaying (h : s.InPlaces) (r : Request) (q : AnnReq) : (s.mergePlaying r q).InPlaces := by
  have h1 : ({ s with anu := { s.anu with playing := some { r.merge q with stopping := false } } } : State).InPlaces :=
    h.setAnu { h.anu with }
  unfold State.mergePlaying
  dsimp only
  split
  · exact h1.compose
  · exact h1

theorem joinRequest (h : s.InPlaces) (q : AnnReq) : (s.joinRequest q).1.InPlaces := by
  unfold State.joinRequest
  split
  · next t e =>
    obtain ⟨ht, hroom⟩ := h.ofAnnPlace e
    have h1 := ht.putRequest hroom (q.toRequest (freshNumber t.annNumbers 13 t.anu.numCtr) t.runTime)
    refine (State.InPlaces.dropWake ?_).post _
    exact h1.setAnu { h1.anu with }
  · exact h.stepAnnDropped 1

theorem takeRequest (h : s.InPlaces) (q : AnnReq) : (s.takeRequest q).1.InPlaces := by
  unfold State.takeRequest
  split
  · exact h
  · split
    · exact h.stepAnnDropped 1
    · dsimp only
      split
      · next hr => exact h.mergeQueued (List.mem_of_find?_eq_some hr) q
      · split
        · exact h.mergeSuspended _ _
        · split
          · exact h.mergePlaying _ _
          · exact h.joinRequest q

/-- The state that a request to the ANU leaves. -/
theorem ofTakeRequest (h : s.InPlaces) {q : AnnReq} {t : State} {b : Bool} (e : s.takeRequest q = (t, b)) :
    t.InPlaces := by
  have := h.takeRequest q
  rwa [e] at this

theorem handleAnnounce (h : s.InPlaces) (q : AnnReq) : (s.handleAnnounce q).InPlaces := by
  unfold State.handleAnnounce
  split
  · next e =>
    split
    · exact (h.ofTakeRequest e).updRec _ _
    · exact h.ofTakeRequest e
  · next e => exact h.ofTakeRequest e

theorem stopPlaying (h : s.InPlaces) (r : Request) : (s.stopPlaying r).InPlaces := by
  have h1 : ({ s with anu := { s.anu with
      playing := some { r with stopping := true, cursor := s.flushCursor r }, fifo := [] } } : State).InPlaces :=
    h.setAnu { h.anu with fifo := Nat.zero_le _ }
  unfold State.stopPlaying
  dsimp only
  split
  · exact h1.endCancelled
  · exact h1

theorem cancelPair (h : s.InPlaces) (x : Source) (t : Option Nat) : (s.cancelPair x t).InPlaces := by
  have stripped : ∀ (f : Request → Bool × Request) (g : Bool × Request → Option Request), ({ s with anu := { s.anu with
      queue := (s.anu.queue.map f).filterMap g, stack := (s.anu.stack.map f).filterMap g } } : State).InPlaces :=
    fun f g => h.setAnu { h.anu with
      queue := filterMap_room (map_room h.anu.queue)
      stack := filterMap_room (map_room h.anu.stack) }
  have h1 := fun f g => (stripped f g).dropWake
  unfold State.cancelPair
  dsimp only
  split
  · exact h1 _ _
  · split
    · exact (h1 _ _).stopPlaying _
    · exact (h1 _ _).setAnu { (h1 _ _).anu with }

theorem cancelSame (h : s.InPlaces) (t : Nat) (l : List Nat) (z : BitVec 5) : (s.cancelSame t l z).1.InPlaces := by
  unfold State.cancelSame
  dsimp only
  split
  · refine State.InPlaces.dropWake ?_
    exact h.setAnu { h.anu with
      queue := filter_room h.anu.queue
      stack := filter_room h.anu.stack }
  · split
    · exact h.stopPlaying _
    · exact h

theorem showLine (h : s.InPlaces) (p : Nat) : (s.showLine p).InPlaces := by
  unfold State.showLine
  split
  · exact h
  · dsimp only
    split
    · exact h.setSlc h.slc
    · split
      · exact h
      · exact h.command _

theorem showLines (h : s.InPlaces) : s.showLines.InPlaces := by
  unfold State.showLines
  split
  · exact foldl (fun _ p ht => ht.showLine p) h _
  · exact h

/-! ## Start Arbiter -/

/-- A change of a queue that keeps to its room keeps the places. -/
theorem updQueue (h : s.InPlaces) (k : Nat) (f : List QueuedAsk → List QueuedAsk)
    (hf : (f (s.arb k).queue).length ≤ askRoom) : (s.updQueue k f).InPlaces :=
  h.updArb k _ fun ha => { ha with queue := hf }

/-- A change of a queue that makes it no longer keeps the places. -/
theorem shrinkQueue (h : s.InPlaces) (k : Nat) (f : List QueuedAsk → List QueuedAsk)
    (hf : ∀ q, (f q).length ≤ q.length) : (s.updQueue k f).InPlaces :=
  h.updQueue k f (Nat.le_trans (hf _) (h.arb k).queue)

/-- A change of a counted-start list that keeps to three starts keeps the places. -/
theorem updCounted (h : s.InPlaces) (k : Nat) (f : List Counted → List Counted)
    (hf : (f (s.arb k).counted).length ≤ 3) : (s.updCounted k f).InPlaces :=
  h.updArb k _ fun ha => { ha with counted := hf }

/-- A change of a counted-start list that makes it no longer keeps the places. -/
theorem shrinkCounted (h : s.InPlaces) (k : Nat) (f : List Counted → List Counted)
    (hf : ∀ l, (f l).length ≤ l.length) : (s.updCounted k f).InPlaces :=
  h.updCounted k f (Nat.le_trans (hf _) (h.arb k).counted)

/-- A change of a taken-start list that keeps to its room keeps the places. -/
theorem updTaken (h : s.InPlaces) (k : Nat) (f : List Taken → List Taken)
    (hf : (f (s.arb k).taken).length ≤ takenRoom) : (s.updTaken k f).InPlaces :=
  h.updArb k _ fun ha => { ha with taken := hf }

/-- A change of a taken-start list that makes it no longer keeps the places. -/
theorem shrinkTaken (h : s.InPlaces) (k : Nat) (f : List Taken → List Taken) (hf : ∀ l, (f l).length ≤ l.length) :
    (s.updTaken k f).InPlaces :=
  h.updTaken k f (Nat.le_trans (hf _) (h.arb k).taken)

theorem atSection (h : s.InPlaces) (id : Nat) {f : Nat → State → State} (hf : ∀ k, (f k s).InPlaces) :
    (s.atSection id f).InPlaces := by
  unfold State.atSection
  split
  · exact hf _
  · exact h

/-- The limit in force is at most 3 (R92, Table 4-1). -/
theorem limitInForce_le (h : s.InPlaces) (k : Nat) : s.limitInForce k ≤ 3 := by
  unfold State.limitInForce
  split
  · next hc =>
    split
    · decide
    · exact h.limit hc
  · decide

/-- A grantable ask finds fewer than three starts counted (R92). -/
theorem grantable_counted (h : s.InPlaces) {k : Nat} {a : QueuedAsk} (hg : s.grantable k a = true) :
    (s.arb k).counted.length < 3 := by
  have hl := h.limitInForce_le k
  simp only [State.grantable, Bool.and_eq_true, decide_eq_true_eq] at hg
  omega

theorem answerOwn (h : s.InPlaces) (k : Nat) (a : QueuedAsk) : (s.answerOwn k a).InPlaces := by
  unfold State.answerOwn
  dsimp only
  split
  · exact (h.updAsker _ _).post _
  · exact ((h.updAsker _ _).updTaken _ _ (joinTaken_room _ _)).post _

theorem raiseOverride (h : s.InPlaces) (k : Nat) (b : Bool) : (s.raiseOverride k b).InPlaces := by
  unfold State.raiseOverride
  split
  · split
    · exact h.raiseOver ..
    · exact h
  · exact h

theorem grantAsk (h : s.InPlaces) {k : Nat} {a : QueuedAsk} (hg : s.grantable k a = true) :
    (s.grantAsk k a).InPlaces := by
  have hc := h.grantable_counted hg
  have h1 : ((s.updQueue k (fun q => q.drop 1)).updCounted k
      (fun l => l ++ [a.start s.runTime s.cfg.sw])).InPlaces := by
    refine (h.shrinkQueue k _ fun q => ?_).updCounted k _ ?_
    · rw [List.length_drop]; omega
    · rw [List.length_append, List.length_singleton, updQueue_counted]; omega
  unfold State.grantAsk
  dsimp only
  split
  · exact (h1.answerOwn k a).raiseOverride _ _
  · exact (h1.send ..).raiseOverride _ _

theorem reevaluateN (h : s.InPlaces) (n k : Nat) : (State.reevaluateN n k s).InPlaces := by
  induction n generalizing s with
  | zero => exact h
  | succ n ih =>
    unfold State.reevaluateN
    split
    · exact h
    · split
      · next hg => exact ih (h.grantAsk hg)
      · exact h

theorem reevaluate (h : s.InPlaces) (k : Nat) : (s.reevaluate k).InPlaces := h.reevaluateN _ _

/-- An ask joins a queue only where the other asks leave it room (R95). -/
theorem joinAsk (h : s.InPlaces) (k p : Nat) : (s.joinAsk k p).InPlaces := by
  unfold State.joinAsk
  dsimp only
  split
  · exact h.updAsker _ _
  · refine (h.updQueue k _ ?_).updAsker _ _
    rw [insertAsk_length]
    omega

theorem presentAsk (h : s.InPlaces) (k p : Nat) : (s.presentAsk k p).InPlaces := ((h.joinAsk k p).reevaluate k).post _

theorem sendAsk (h : s.InPlaces) (k p : Nat) : (s.sendAsk k p).InPlaces := (h.send ..).updAsker _ _

theorem askAgain (h : s.InPlaces) (p : Nat) : (s.askAgain p).InPlaces := by
  unfold State.askAgain
  dsimp only
  split
  · split
    · exact h.sendAsk _ _
    · exact (h.post _).sendAsk _ _
  · exact h

theorem presentAgain (h : s.InPlaces) (p : Nat) : (s.presentAgain p).InPlaces := by
  unfold State.presentAgain
  dsimp only
  split
  · split
    · exact h.sendAsk _ _
    · exact h.presentAsk _ _
  · exact h

theorem withdrawAsk (h : s.InPlaces) (k p : Nat) : (s.withdrawAsk k p).InPlaces :=
  (h.shrinkQueue k _ (dropPair_length _ _)).reevaluate k

theorem cancelAsk (h : s.InPlaces) (p : Nat) : (s.cancelAsk p).InPlaces := by
  have h1 := h.updAsker p Asker.toIdle
  unfold State.cancelAsk
  dsimp only
  split
  · exact h1.atSection _ fun k => h1.withdrawAsk k p
  · exact h1.atSection _ fun k => h1.send ..
  all_goals exact h1

theorem uncount (h : s.InPlaces) (k p n : Nat) : (s.uncount k p n).InPlaces := by
  unfold State.uncount
  split
  · exact (h.shrinkCounted k _ fun l => List.length_filter_le _ _).reevaluate k
  · exact h

theorem untake (h : s.InPlaces) (k p n : Nat) (o : Route) : (s.untake k p n o).InPlaces :=
  h.shrinkTaken k _ fun _ => List.length_filter_le _ _

theorem returnGrant (h : s.InPlaces) (p n : Nat) (o : Route) (id : Nat) : (s.returnGrant p n o id).InPlaces := by
  have returned : ∀ {t : State}, t.InPlaces → (t.atSection id (fun k s =>
      match o with
      | .localRoute => s.uncount k p n
      | .remote => (s.send (s.partnerOf k) (.powerReturn id p n)).untake k p n .remote
      | .standIn => (if (s.arb k).standIn then s.uncount k p n else s).untake k p n .standIn)).InPlaces := by
    intro t ht
    refine ht.atSection id fun k => ?_
    cases o
    · exact ht.uncount k p n
    · exact (ht.send ..).untake ..
    · dsimp only
      split
      · exact (ht.uncount k p n).untake ..
      · exact ht.untake ..
  unfold State.returnGrant
  dsimp only
  split
  · exact returned (h.updAsker p _)
  · exact returned h

theorem returnHeld (h : s.InPlaces) (p : Nat) : (s.returnHeld p).InPlaces := by
  unfold State.returnHeld
  dsimp only
  split
  · exact h.returnGrant ..
  · exact h

theorem keepStart (h : s.InPlaces) (p : Nat) : (s.keepStart p).InPlaces := h.updAsker _ _

theorem endAsk (h : s.InPlaces) (p : Nat) : (s.endAsk p).InPlaces := by
  unfold State.endAsk
  split
  · exact h
  · exact h.returnHeld p
  all_goals exact h.cancelAsk p

theorem startAsk (h : s.InPlaces) (p id n : Nat) (t : Option Nat) (d c : Nat) : (s.startAsk p id n t d c).InPlaces := by
  have h1 := h.endAsk p
  unfold State.startAsk
  dsimp only
  split
  · exact h1
  · split
    · exact (h1.updAsker _ _).sendAsk _ _
    all_goals exact (h1.updAsker _ _).presentAsk _ _

theorem overrideAsk (h : s.InPlaces) (p : Nat) : (s.overrideAsk p).InPlaces := by
  have h1 := h.updAsker p (fun r => { r with overrideFlag := true })
  unfold State.overrideAsk
  dsimp only
  split
  · exact h1.atSection _ fun k => (h1.shrinkQueue k _ fun _ => Nat.le_of_eq (List.length_map ..)).reevaluate k
  · exact h1.atSection _ fun k => h1.sendAsk k p
  · exact h1
  all_goals exact h

theorem countedEnd (h : s.InPlaces) (k : Nat) : (s.countedEnd k).InPlaces := by
  unfold State.countedEnd
  split
  · exact (h.shrinkCounted k _ fun _ => List.length_erase_le).reevaluate k
  · exact h

theorem takenEnd (h : s.InPlaces) (k : Nat) : (s.takenEnd k).InPlaces := by
  unfold State.takenEnd
  split
  · exact h.shrinkTaken k _ fun _ => List.length_erase_le
  · exact h

theorem unheardAsk (h : s.InPlaces) (k : Nat) : (s.unheardAsk k).InPlaces := by
  unfold State.unheardAsk
  split
  · exact (h.shrinkQueue k _ fun _ => List.length_erase_le).reevaluate k
  · exact h

theorem answerQueued (h : s.InPlaces) (k node : Nat) (b : PowerAskBody) : (s.answerQueued k node b).InPlaces := by
  unfold State.answerQueued
  split
  · exact h.send ..
  · exact h

theorem ownerAsk (h : s.InPlaces) (k node : Nat) (b : PowerAskBody) : (s.ownerAsk k node b).InPlaces := by
  unfold State.ownerAsk
  dsimp only
  split
  · exact h.send ..
  · split
    · next a _ =>
      have h1 := fun f : QueuedAsk → QueuedAsk => h.shrinkQueue k (fun q => q.map f) fun _ => Nat.le_of_eq (List.length_map ..)
      split
      · exact ((h1 _).reevaluate k).answerQueued k node b
      · exact (h1 _).answerQueued k node b
    · split
      · exact h.send ..
      · refine ((h.updQueue k _ ?_).reevaluate k).answerQueued k node b
        rw [insertAsk_length]
        omega

theorem ownerReturn (h : s.InPlaces) (k node p n : Nat) : (s.ownerReturn k node p n).InPlaces := by
  unfold State.ownerReturn
  dsimp only
  split
  · exact (h.shrinkCounted k _ fun _ => List.length_filter_le _ _).reevaluate k
  · split
    · exact (h.shrinkQueue k _ fun _ => List.length_filter_le _ _).reevaluate k
    · exact h

theorem askerGrant (h : s.InPlaces) (k id p n : Nat) : (s.askerGrant k id p n).InPlaces := by
  have h1 := h.updAsker p (fun r => { r with phase := .holding, origin := some .remote, waitEnd := none })
  unfold State.askerGrant
  dsimp only
  split
  · split
    · exact ((h1.withdrawAsk k p).updTaken k _ (joinTaken_room _ _)).post _
    · exact (h1.updTaken k _ (joinTaken_room _ _)).post _
  · split
    · exact h
    · exact h.post _

theorem askerDefer (h : s.InPlaces) (id p n : Nat) : (s.askerDefer id p n).InPlaces := by
  unfold State.askerDefer
  split
  · exact (h.updAsker _ _).post _
  · exact h

theorem setRoute (h : s.InPlaces) (p : Nat) (r : Route) : (s.setRoute p r).InPlaces := h.updAsker _ _

/-- The counted starts seeded from the taken starts are no more than those (R105). -/
theorem seedCounted_length (h : s.InPlaces) (k : Nat) : (s.seedCounted k).length ≤ 3 :=
  map_room (filter_room (h.arb k).taken)

theorem beginStandIn (h : s.InPlaces) (k : Nat) : (s.beginStandIn k).InPlaces := by
  have h1 : (s.updArb k (fun a => { a with standIn := true, counted := s.seedCounted k })).InPlaces :=
    h.updArb k _ fun ha => { ha with counted := h.seedCounted_length k }
  unfold State.beginStandIn
  split
  · exact h
  · exact ((foldl (fun _ p ht => (ht.setRoute p _).joinAsk k p) h1 _).reevaluate k).posts _

theorem endStandIn (h : s.InPlaces) (k : Nat) : (s.endStandIn k).InPlaces := by
  have h1 : (s.updArb k (fun a => { a with standIn := false, counted := [], queue := [] })).InPlaces :=
    h.updArb k _ fun ha => { ha with counted := Nat.zero_le _, queue := Nat.zero_le _ }
  unfold State.endStandIn
  split
  · exact foldl (fun _ p ht => ht.setRoute p _) (foldl (fun _ p ht => (ht.setRoute p _).sendAsk k p) h1 _) _
  · exact h

/-! ## Section Monitor -/

theorem setSecState (h : s.InPlaces) (k : Nat) (x : Option SectionState) : (s.setSecState k x).InPlaces := by
  unfold State.setSecState
  split
  · exact h
  · exact (h.updSec k _).post _

theorem dropSecTimer (h : s.InPlaces) (k : Nat) : (s.dropSecTimer k).InPlaces := (h.releaseOpt _).updSec k _

theorem askSecTimer (h : s.InPlaces) (k n : Nat) : (s.askSecTimer k n).1.InPlaces := by
  unfold State.askSecTimer
  split
  · next e => exact (h.ofTimer e).updSec k _
  · next e => exact h.ofTimer e

/-- The state that a request for a section timer leaves. -/
theorem ofSecTimer (h : s.InPlaces) {k n : Nat} {t : State} {b : Bool} (e : s.askSecTimer k n = (t, b)) :
    t.InPlaces := by
  have := h.askSecTimer k n
  rwa [e] at this

theorem breaker (h : s.InPlaces) (k : Nat) (b : Bool) : (s.breaker k b).InPlaces := h.command _

theorem raiseSection (h : s.InPlaces) (k : Nat) (x : IncKind) : (s.raiseSection k x).InPlaces := by
  unfold State.raiseSection
  split
  · exact h.raiseOver ..
  · exact h

theorem endSection (h : s.InPlaces) (k : Nat) (x : IncKind) : (s.endSection k x).InPlaces := h.post _

theorem lockOut (h : s.InPlaces) (k : Nat) : (s.lockOut k).InPlaces :=
  ((h.dropSecTimer k).setSecState k _).raiseSection k _

theorem energize (h : s.InPlaces) (k : Nat) : (s.energize k).InPlaces :=
  (((h.dropSecTimer k).setSecState k _).endSection k _).endSection k _

theorem isolate (h : s.InPlaces) (k : Nat) : (s.isolate k).InPlaces :=
  (((h.dropSecTimer k).breaker k _).updSec k _).setSecState k _

theorem goodGate (h : s.InPlaces) (k n : Nat) (c : SectionCfg) : (s.goodGate k n c).InPlaces := by
  unfold State.goodGate
  dsimp only
  split
  · exact (h.updSec k _).endSection k _
  · exact h.updSec k _

theorem badGate (h : s.InPlaces) (k : Nat) : (s.badGate k).InPlaces := by
  unfold State.badGate
  dsimp only
  split
  · exact (h.updSec k _).raiseSection k _
  · exact h.updSec k _

theorem completeGate (h : s.InPlaces) (k n : Nat) (c : SectionCfg) : (s.completeGate k n c).InPlaces := by
  unfold State.completeGate
  split
  · exact (h.goodGate k n c).reevaluate k
  · exact (h.badGate k).reevaluate k

theorem gateEnds (h : s.InPlaces) (k n : Nat) : (s.gateEnds k n).InPlaces := by
  unfold State.gateEnds
  split
  · split
    · refine (State.InPlaces.updSec ?_ k _).completeGate k _ _
      exact { h with }
    · exact h
  · exact h

theorem startGates (h : s.InPlaces) : s.startGates.InPlaces := by
  refine foldl (fun t k ht => ?_) h _
  split
  · exact ht.updSec k _
  · exact ht

theorem closedReport (h : s.InPlaces) (k : Nat) : (s.closedReport k).InPlaces := by
  unfold State.closedReport
  split
  · exact h.energize k
  · exact h.energize k
  · exact h.energize k
  · exact h.energize k
  · exact (h.updSec k _ fun _ _ => Nat.zero_le _).energize k
  · split
    · exact h
    · exact (h.breaker k _).updSec k _
  all_goals exact h

theorem trip (h : s.InPlaces) (k : Nat) : (s.trip k).InPlaces := by
  have h1 : ((s.raiseSection k .sectionTrip).updSec k
      (fun d => { d with attempts := s.inWindow (s.sec k).attempts })).InPlaces :=
    (h.raiseSection k _).updSec k _ fun _ _ => filter_room (h.attempts k)
  unfold State.trip
  dsimp only
  split
  · exact h1.lockOut k
  · split
    · next e => exact (h1.ofSecTimer e).setSecState k _
    · next e => exact (h1.ofSecTimer e).lockOut k

theorem openReport (h : s.InPlaces) (k : Nat) : (s.openReport k).InPlaces := by
  unfold State.openReport
  split
  · exact h.setSecState k _
  · exact h.trip k
  · exact h.updSec k _
  all_goals exact h

theorem breakerReport (h : s.InPlaces) (k v : Nat) : (s.breakerReport k v).InPlaces := by
  unfold State.breakerReport
  split
  · split
    · exact h.openReport k
    · exact h.closedReport k
    · exact h
  · exact h

theorem commandClose (h : s.InPlaces) (k : Nat) (x : SectionState) : (s.commandClose k x).InPlaces := by
  unfold State.commandClose
  dsimp only
  split
  · exact ((h.breaker k _).setSecState k _).closedReport k
  · exact (h.breaker k _).setSecState k _

theorem reclose (h : s.InPlaces) (k : Nat) : (s.reclose k).InPlaces := by
  unfold State.reclose
  dsimp only
  split
  · next e => exact (((h.dropSecTimer k).ofSecTimer e).updSec k _ fun _ _ => joinAttempt_room _ _).commandClose k _
  · next e => exact ((h.dropSecTimer k).ofSecTimer e).lockOut k

theorem checkCuts (h : s.InPlaces) : s.checkCuts.InPlaces := by
  refine foldl (fun t k ht => ?_) h _
  split
  · exact ht.isolate k
  · exact ht

theorem firstBreakerReports (h : s.InPlaces) : s.firstBreakerReports.InPlaces := by
  refine foldl (fun t k ht => ?_) h _
  split
  · split
    · exact ht.closedReport k
    · split
      · exact ht.openReport k
      · exact ht
  · exact ht

theorem isolateDirective (h : s.InPlaces) (id : Nat) : (s.isolateDirective id).1.InPlaces := by
  unfold State.isolateDirective
  split
  · exact h
  · split
    · exact h.isolate _
    · exact h

theorem restoreDirective (h : s.InPlaces) (id : Nat) : (s.restoreDirective id).1.InPlaces := by
  unfold State.restoreDirective
  split
  · exact h
  · split
    · exact h
    · split
      · exact h
      · split
        · next e => exact (h.ofSecTimer e).commandClose _ _
        · next e => exact h.ofSecTimer e

theorem updateMirrors (h : s.InPlaces) (n : Nat) (b : StatusBody) : (s.updateMirrors n b).InPlaces := by
  refine foldl (fun t k ht => ?_) h _
  split
  · split
    · exact (ht.updSec k _).setSecState k _
    · exact ht
  · exact ht

theorem staleMirrors (h : s.InPlaces) (n : Nat) : (s.staleMirrors n).InPlaces := by
  refine foldl (fun t k ht => ?_) h _
  split
  · exact ht.updSec k _
  · exact ht

end State.InPlaces

end Sys2Proof.Machine
end

section
/-! PROOFS. The Regulation Engine, the Handover Engine and the Incident Unit keep the places. -/

namespace Sys2Proof.Machine

open Sys2Proof

/-! ## The incident table, entry by entry -/

/-- A change of one entry that keeps its id keeps the ids of the table. -/
theorem updInc_ids (s : State) (id : IncId) (f : Incident → Incident) (hf : ∀ e, (f e).id = e.id) :
    (s.updInc id f).inu.table.map (·.id) = s.inu.table.map (·.id) := by
  rw [updInc_inu, List.map_map]
  refine List.map_congr_left fun e _ => ?_
  simp only [Function.comp_apply]
  split
  · exact hf e
  · rfl

theorem releaseOpt_inu (s : State) (h : Option Handle) : (s.releaseOpt h).inu = s.inu := by
  unfold State.releaseOpt State.releaseTimer State.endExhaustion State.updPairOf State.updChan State.updPlace State.post
  (repeat' split) <;> rfl

theorem dropEscalation_ids (s : State) (id : IncId) :
    (s.dropEscalation id).inu.table.map (·.id) = s.inu.table.map (·.id) := by
  refine (updInc_ids _ _ _ ?_).trans (by rw [releaseOpt_inu])
  exact fun _ => rfl

theorem broadcastInc_ids (s : State) (id : IncId) :
    (s.broadcastInc id).inu.table.map (·.id) = s.inu.table.map (·.id) := by
  unfold State.broadcastInc
  split
  · split
    · refine (updInc_ids _ _ _ ?_).trans (by rw [(send_work ..).2])
      exact fun _ => rfl
    · rfl
  · rfl

theorem clearRef_inu (s : State) (e : Incident) : (s.clearRef e).inu = s.inu := by
  unfold State.clearRef
  split
  · split <;> rfl
  · rfl

/-- An entry of the table that is evicted leaves its place free. -/
theorem evict_table_length {s : State} {e : Incident} (he : e ∈ s.inu.table) :
    (s.evict e).inu.table.length < s.inu.table.length := by
  have gone : ∀ t : State, t.inu.table.map (·.id) = s.inu.table.map (·.id) →
      ((((t.dropEscalation e.id).removeInc e.id).actingMoved.post (.cancelSource (.incident (some e.id)) none)).clearRef
        e).inu.table.length < s.inu.table.length := by
    intro t ht
    rw [clearRef_inu]
    show ((t.dropEscalation e.id).inu.table.filter (fun x => x.id != e.id)).length < _
    have hids := (dropEscalation_ids t e.id).trans ht
    have hlen := congrArg List.length hids
    rw [List.length_map, List.length_map] at hlen
    rw [← hlen]
    obtain ⟨x, hx, hid⟩ := List.mem_map.mp (hids ▸ List.mem_map_of_mem he : e.id ∈ _)
    exact List.length_filter_lt_length_iff_exists.mpr ⟨x, hx, by simp [hid]⟩
  unfold State.evict
  dsimp only
  split
  · exact gone _ (broadcastInc_ids s e.id)
  · exact gone s rfl

/-- The least entry of a list by a measure stands in it. -/
theorem leastBy_mem {f : Incident → Nat} {l : List Incident} {e : Incident} (h : leastBy f l = some e) : e ∈ l := by
  have key : ∀ (l : List Incident) (best : Option Incident) (e : Incident),
      l.foldl (fun best e => match best with
        | none => some e
        | some b => if f e < f b then some e else some b) best = some e → e ∈ l ∨ best = some e := by
    intro l
    induction l with
    | nil => exact fun _ _ h => .inr h
    | cons x xs ih =>
      intro best e h
      rcases ih _ e h with h | h
      · exact .inl (List.mem_cons_of_mem _ h)
      · cases best with
        | none => cases h; exact .inl List.mem_cons_self
        | some b =>
          dsimp only at h
          split at h
          · cases h; exact .inl List.mem_cons_self
          · exact .inr h
  exact (key l none e h).resolve_right (by simp)

theorem oldestCleared_mem {s : State} {e : Incident} (h : s.oldestCleared = some e) : e ∈ s.inu.table :=
  (List.mem_filter.mp (leastBy_mem h)).1

theorem lowestPeer_mem {s : State} {n : Nat} {e : Incident} (h : s.lowestPeer n = some e) : e ∈ s.inu.table := by
  unfold State.lowestPeer at h
  dsimp only at h
  split at h
  · exact (List.mem_filter.mp (List.mem_filter.mp (leastBy_mem h)).1).1
  · cases h

namespace State.InPlaces

variable {s : State}

/-! ## Regulation Engine -/

theorem dropPowerWait (h : s.InPlaces) (p : Nat) : (s.dropPowerWait p).InPlaces := (h.releaseOpt _).updCtx p _

theorem idleCtx (h : s.InPlaces) (p : Nat) : (s.idleCtx p).InPlaces := ((h.dropPowerWait p).stopDwell p).updCtx p _

theorem setUse (h : s.InPlaces) (p : Nat) (u : ChannelUse) : (s.setUse p u).InPlaces := h.updCtx p _

theorem cueExpires (h : s.InPlaces) (p : Nat) (r : TrainRec) : (s.cueExpires p r).InPlaces := h.post _

theorem startCue (h : s.InPlaces) (p t : Nat) (n : Int) : (s.startCue p t n).InPlaces := by
  unfold State.startCue
  split
  · exact h
  · exact .ite h (.ite (h.cueExpires p _) ((h.loadDwell ..).setUse p _))

theorem cancelDoor (h : s.InPlaces) (r : Nat) : (s.cancelDoor r).InPlaces := h.post _

theorem giveBack (h : s.InPlaces) (p : Nat) (r : TrainRec) : (s.giveBack p r).InPlaces :=
  (((h.returnHeld p).updCtx p _).updRec _ _).cancelDoor _

theorem dropAsk (h : s.InPlaces) (p : Nat) : (s.dropAsk p).InPlaces := ((h.cancelAsk p).updCtx p _).dropPowerWait p

theorem holdActions (h : s.InPlaces) (p : Nat) (r : TrainRec) : (s.holdActions p r).InPlaces := by
  unfold State.holdActions
  split
  · exact h.dropAsk p
  · exact .ite (((h.giveBack p r).stopDwell p).setUse p _) (h.giveBack p r)
  · exact ((h.authorityOff p).giveBack p r).updCtx p _
  all_goals exact h

theorem holdArises (h : s.InPlaces) (p : Nat) : (s.holdArises p).InPlaces := by
  unfold State.holdArises
  split
  · exact h
  · next r _ =>
    have h1 := h.holdActions p r
    exact .ite (.ite ((h1.moveRec ..).idleCtx p) (.ite h1 (.ite ((h1.moveRec ..).startCue ..) (h1.moveRec ..)))) h

theorem makeAsk (h : s.InPlaces) (p : Nat) (c : PlatformCfg) (r : TrainRec) : (s.makeAsk p c r).InPlaces := by
  unfold State.makeAsk
  have h1 := fun (f : Ctx → Ctx) id n t d c => (h.updCtx p f).startAsk p id n t d c
  exact .ite (h1 ..) (((h1 ..).requestTimer ..).updCtx p _)

theorem holdClears (h : s.InPlaces) (p : Nat) (c : PlatformCfg) : (s.holdClears p c).InPlaces := by
  unfold State.holdClears
  split
  · exact h
  · next r _ =>
    have cleared : ∀ {t : State}, t.InPlaces →
        ((t.updCtx p (fun x => { x with heldFromAuth := false })).post (.cancelSource (.hold r.run) none)).InPlaces :=
      fun ht => (ht.updCtx p _).post _
    have moved : ∀ {t : State}, t.InPlaces → (if (t.ctx p).markPassed
        then (t.moveRec r.tag .held .asking).makeAsk p c r else t.moveRec r.tag .held .dwelling).InPlaces :=
      fun ht => .ite ((ht.moveRec ..).makeAsk p c r) (ht.moveRec ..)
    exact .ite (moved (cleared (.ite ((h.stopDwell p).setUse p _) h))) h

theorem recomputeHold (h : s.InPlaces) (p : Nat) : (s.recomputeHold p).InPlaces := by
  unfold State.recomputeHold
  split
  · next c r _ _ =>
    have h1 := h.updCtx p (fun x => { x with holdSet := s.holdConds c r })
    exact .ite (h1.holdArises p) (.ite (h1.holdClears p c) (.ite (h1.holdArises p) h1))
  · exact h

theorem recomputeHolds (h : s.InPlaces) : s.recomputeHolds.InPlaces := foldl (fun _ p ht => ht.recomputeHold p) h _

theorem takeTheMark (h : s.InPlaces) (p : Nat) (c : PlatformCfg) : (s.takeTheMark p c).InPlaces := by
  have h1 := h.updCtx p (fun x => { x with markPassed := true })
  unfold State.takeTheMark
  dsimp only
  split
  · exact .ite ((h1.moveRec ..).makeAsk p c _) h1
  · exact h1

theorem authorityTime (h : s.InPlaces) (p : Nat) (c : PlatformCfg) : (s.authorityTime p c).InPlaces := by
  unfold State.authorityTime
  split
  · exact h
  · exact .ite (((h.command _).moveRec ..).setUse p _) ((h.updCtx p _).holdArises p)

theorem arrangeAuthority (h : s.InPlaces) (p : Nat) (c : PlatformCfg) : (s.arrangeAuthority p c).InPlaces :=
  .ite h (.ite (h.authorityTime p c) ((h.loadDwell ..).setUse p _))

theorem takeGrant (h : s.InPlaces) (p n : Nat) (o : Route) (k : Nat) : (s.takeGrant p n o k).InPlaces := by
  unfold State.takeGrant
  split
  · next c r _ _ =>
    exact .ite ((((((h.moveRec ..).updRec _ _).updCtx p _).dropPowerWait p).post _).arrangeAuthority p c)
      (h.returnGrant ..)
  · exact h.returnGrant ..

theorem startDwell (h : s.InPlaces) (p : Nat) (c : PlatformCfg) (n : Int) : (s.startDwell p c n).1.InPlaces := by
  unfold State.startDwell
  split
  · exact (h.loadDwell ..).setUse p _
  · split
    · exact (h.loadDwell ..).setUse p _
    · exact h.updCtx p _

theorem holdAtComputation (h : s.InPlaces) (p : Nat) (c : PlatformCfg) : (s.holdAtComputation p c).InPlaces := by
  unfold State.holdAtComputation
  split
  · exact h
  · exact .ite h ((h.updCtx p _).holdArises p)

theorem compute (h : s.InPlaces) (p t : Nat) : (s.compute p t).InPlaces := by
  unfold State.compute
  split
  · next c r _ _ =>
    have h1 := fun f g u n => (((((h.idleCtx p).updCtx p (fun x => x.activate t)).updCtx p f).updRec u g).startDwell p c
      n).holdAtComputation p c
    exact .ite ((h1 ..).takeTheMark p c) (h1 ..)
  · exact h

theorem targetExpires (h : s.InPlaces) (p : Nat) (c : PlatformCfg) : (s.targetExpires p c).InPlaces := by
  have h1 := h.updCtx p (fun x => { x with targetReached := true, use := .stopped })
  unfold State.targetExpires
  dsimp only
  split
  · exact h1
  · split
    · exact h1.authorityTime p c
    · exact h1.startCue ..
    all_goals exact h1

theorem authExpires (h : s.InPlaces) (p : Nat) (c : PlatformCfg) : (s.authExpires p c).InPlaces := by
  have h1 := h.setUse p .stopped
  unfold State.authExpires
  dsimp only
  split
  · exact .ite (h1.authorityTime p c) h1
  · exact h1

theorem cueWaitExpires (h : s.InPlaces) (p : Nat) : (s.cueWaitExpires p).InPlaces := by
  have h1 := h.setUse p .stopped
  unfold State.cueWaitExpires
  dsimp only
  split
  · exact .ite (h1.cueExpires p _) h1
  · exact h1

theorem powerWaitExpires (h : s.InPlaces) (p : Nat) : (s.powerWaitExpires p).InPlaces := by
  have h1 := h.dropPowerWait p
  unfold State.powerWaitExpires
  dsimp only
  split
  · exact .ite (h1.overrideAsk p) h1
  · exact h1

theorem testLate (h : s.InPlaces) (p t : Nat) : (s.testLate p t).InPlaces := by
  unfold State.testLate
  split
  · split
    · exact .ite (h.raise _ _) h
    · exact h
  · exact h

theorem captureDeparture (h : s.InPlaces) (p : Nat) (c : PlatformCfg) (r : TrainRec) (t : Option Nat) :
    (s.captureDeparture p c r t).InPlaces := ((h.updRec _ _).moveRec ..).updPlat p _

theorem endStart (h : s.InPlaces) (p : Nat) (r : TrainRec) : (s.endStart p r).InPlaces := by
  have given : ∀ {t : State}, t.InPlaces → (if (t.ctx p).grantHeld then t.returnHeld p else t).InPlaces :=
    fun ht => .ite (ht.returnHeld p) ht
  exact (given (.ite (h.dropAsk p) (h.dropPowerWait p))).cancelDoor _

theorem departRegular (h : s.InPlaces) (p : Nat) (c : PlatformCfg) (r : TrainRec) (t : Option Nat) :
    (s.departRegular p c r t).InPlaces :=
  ((((h.authorityOff p).captureDeparture p c r t).cancelDoor _).keepStart p).idleCtx p

theorem departWithout (h : s.InPlaces) (p : Nat) (c : PlatformCfg) (r : TrainRec) (t : Option Nat) :
    (s.departWithout p c r t).InPlaces := by
  have h2 := ((h.captureDeparture p c r t).updRec r.tag (fun x => { x with departedWithout := true })).endStart p r
  exact (State.InPlaces.ite (h2.authorityOff p) h2).idleCtx p

theorem fallAt (h : s.InPlaces) (p : Nat) (t : Option Nat) : (s.fallAt p t).InPlaces := by
  have h1 := h.vacate p
  unfold State.fallAt
  dsimp only
  split
  · split
    · exact .ite (h1.removeRec _) (.ite (((h1.departRegular ..).testLate ..).post _)
        (.ite (((h1.departWithout ..).testLate ..).post _) h1))
    · exact h1
  · exact h1

theorem contextGone (h : s.InPlaces) (p : Nat) : (s.contextGone p).InPlaces := by
  have asked : ∀ {t : State} {b : Bool}, t.InPlaces → (if b then t.dropAsk p else t).InPlaces :=
    fun ht => .ite (ht.dropAsk p) ht
  have off : ∀ {t : State} {b : Bool}, t.InPlaces → (if b then t.authorityOff p else t).InPlaces :=
    fun ht => .ite (ht.authorityOff p) ht
  exact (off (asked (.ite (h.returnHeld p) h))).idleCtx p

theorem contextsGone (h : s.InPlaces) (t : Nat) : (s.contextsGone t).InPlaces :=
  foldl (fun _ p ht => .ite (ht.contextGone p) ht) h _

theorem brakeAt (h : s.InPlaces) (p : Nat) (t : Option Nat) : (s.brakeAt p t).InPlaces := by
  have h1 : (match t with
      | some t => s.updCtx p (fun x => { x with latestBrake := some t })
      | none => s).InPlaces := by
    cases t
    · exact h
    · exact h.updCtx p _
  unfold State.brakeAt
  split
  · exact h
  · split
    · dsimp only
      split
      · exact .ite h1 (h1.post _)
      · exact h1
    · exact h

theorem setModeDirective (h : s.InPlaces) (m : Nat) (p : Option Nat) : (s.setModeDirective m p).1.InPlaces := by
  unfold State.setModeDirective
  split
  · exact h
  · split
    · exact { h with }
    · split
      · exact { h with }
      · exact h

/-! ## Handover Engine -/

/-- A change of the HOE alone. -/
theorem setHoe (h : s.InPlaces) {x : Hoe} (hx : x.InPlaces) : ({ s with hoe := x } : State).InPlaces :=
  { h with hoe := hx }

theorem updHctx (h : s.InPlaces) (t : Nat) (f : HandoverCtx → HandoverCtx) : (s.updHctx t f).InPlaces :=
  h.setHoe { h.hoe with }

theorem closeHctx (h : s.InPlaces) (t : Nat) : (s.closeHctx t).InPlaces := h.setHoe { h.hoe with }

theorem dropRetry (h : s.InPlaces) (t : Nat) : (s.dropRetry t).InPlaces := (h.releaseOpt _).updHctx t _

theorem askRetry (h : s.InPlaces) (t n : Nat) : (s.askRetry t n).InPlaces :=
  ((h.dropRetry t).requestTimer (.handoverRetry t) n none false).updHctx t _

theorem sendHandover (h : s.InPlaces) (t : Nat) : (s.sendHandover t).InPlaces := by
  unfold State.sendHandover
  split
  · exact (h.updHctx t _).send ..
  · exact h

theorem openHandover (h : s.InPlaces) (t : Nat) : (s.openHandover t).InPlaces := by
  unfold State.openHandover
  split
  · exact h
  · next r _ =>
    have h1 := h.updHoeDir r.dir (fun x => { x with sendCtr := some (wrap8 (((s.hoeDir r.dir).sendCtr).getD 0 + 1)) })
      fun _ hx => { hx with }
    refine (State.InPlaces.sendHandover ?_ t).askRetry t 20
    exact h1.setHoe { h1.hoe with }

theorem orphanLost (h : s.InPlaces) (t r : Nat) : (s.orphanLost t r).InPlaces :=
  (((h.dropRetry t).moveRec ..).updHctx t _).raise _ _

theorem failAttempt (h : s.InPlaces) (x : HandoverCtx) : (s.failAttempt x).InPlaces :=
  .ite (((h.updHctx _ _).sendHandover _).askRetry _ _) (h.orphanLost _ _)

theorem startOrphanRetry (h : s.InPlaces) (t : Nat) : (s.startOrphanRetry t).InPlaces :=
  (((h.moveRec ..).sendHandover t).updHctx t _).askRetry t _

theorem endOrphanRetry (h : s.InPlaces) (t : Nat) : (s.endOrphanRetry t).InPlaces :=
  ((h.dropRetry t).moveRec ..).updHctx t _

theorem retryExpires (h : s.InPlaces) (t : Nat) : (s.retryExpires t).InPlaces := by
  have h1 := h.dropRetry t
  unfold State.retryExpires
  dsimp only
  split
  · exact h1.failAttempt _
  · exact h1

theorem retryEnds (h : s.InPlaces) (t : Nat) : (s.retryEnds t).InPlaces := by
  unfold State.retryEnds
  split
  · split
    · exact h.retryExpires t
    · exact h.endOrphanRetry t
    · exact h
  · exact h

theorem endHandover (h : s.InPlaces) (d : Dir) (x : HandoverCtx) : (s.endHandover d x).InPlaces := by
  have h1 := (((h.dropRetry x.tag).updHoeDir d (fun y => { y with
      sent := joinHistory { carried := x.carried, seq := x.seq } y.sent
      lastTaken := newerTaken y.lastTaken x.seq })
    fun _ hy => { hy with sent := joinHistory_room _ _ }).closeHctx x.tag).removeRec x.tag
  exact .ite (h1.post _) h1

theorem takeRefusal (h : s.InPlaces) (x : HandoverCtx) (b : Bool) : (s.takeRefusal x b).InPlaces := by
  unfold State.takeRefusal
  split
  · exact h
  · exact h.endOrphanRetry _
  · exact .ite ((((h.dropRetry _).raise _ _).moveRec ..).updHctx _ _) (.ite (h.askRetry _ _) (h.orphanLost _ _))

theorem downstreamHeard (h : s.InPlaces) (x : HandoverCtx) : (s.downstreamHeard x).InPlaces := by
  unfold State.downstreamHeard
  split
  · exact .ite (h.failAttempt x) h
  · exact h.startOrphanRetry _
  · exact .ite ((h.endOrphanRetry _).startOrphanRetry _) h

theorem hoeStatus (h : s.InPlaces) (n : Nat) : (s.hoeStatus n).InPlaces := by
  refine foldl (fun t x ht => ?_) h _
  split
  · exact .ite (ht.downstreamHeard x) ht
  · exact ht

theorem startWatch (h : s.InPlaces) (t : Nat) : (s.startWatch t).InPlaces := by
  unfold State.startWatch
  split
  · exact h
  · split
    · exact h
    · split
      · next e => exact h.ofTimer e
      · next e =>
        have h1 := h.ofTimer e
        dsimp only
        split
        · exact h1.setHoe { h1.hoe with }
        · exact (h1.stopTimer _).setHoe { (h1.stopTimer _).hoe with }

theorem dropWatch (h : s.InPlaces) (t : Nat) : (s.dropWatch t).InPlaces :=
  have h1 := h.releaseOpt ((s.watchOf t).map (fun w : StallWatch => w.timer))
  h1.setHoe { h1.hoe with }

theorem feedWatch (h : s.InPlaces) (w : StallWatch) : (s.feedWatch w).InPlaces := by
  unfold State.feedWatch
  dsimp only
  split
  · exact h
  · split
    · exact (h.resumeTimer _).setHoe { (h.resumeTimer _).hoe with }
    · exact (h.stopTimer _).setHoe { (h.stopTimer _).hoe with }

theorem feedWatches (h : s.InPlaces) : s.feedWatches.InPlaces := foldl (fun _ w ht => ht.feedWatch w) h _

theorem watchExpires (h : s.InPlaces) (t : Nat) : (s.watchExpires t).InPlaces := by
  have h1 := h.dropWatch t
  unfold State.watchExpires
  dsimp only
  split
  · exact .ite (h1.raiseOver ..) h1
  · exact h1

theorem watchBerthed (h : s.InPlaces) (t r : Nat) : (s.watchBerthed t r).InPlaces := (h.dropWatch t).post _

theorem hoeGone (h : s.InPlaces) (t r : Nat) : (s.hoeGone t r).InPlaces := by
  have h1 := (h.dropRetry t).closeHctx t
  unfold State.hoeGone
  dsimp only
  split
  · exact (State.InPlaces.ite (h1.post _) h1).watchBerthed t r
  · exact h.watchBerthed t r

theorem answerRepeat (h : s.InPlaces) (n : Nat) (e : SentEntry) : (s.answerRepeat n e).InPlaces := by
  refine (State.InPlaces.post ?_ _).send ..
  exact h.setTtu { h.ttu with table := map_room h.ttu.table }

theorem acceptHandover (h : s.InPlaces) (n t : Nat) (e : SentEntry) : (s.acceptHandover n t e).InPlaces := by
  have received : ∀ {u : State}, u.InPlaces → ((u.updHoeDir e.carried.dir (fun x => { x with
      expected := some (wrap8 (e.seq + 1))
      received := joinHistory { run := e.carried.run, seq := e.seq } x.received
      accepted := true })).startWatch t).InPlaces :=
    fun hu => (hu.updHoeDir _ _ (by exact fun _ hx => { hx with received := joinHistory_room _ _ })).startWatch t
  unfold State.acceptHandover
  dsimp only
  split
  · exact (received (.ite h (h.raise _ _))).send ..
  · exact (received h).send ..

theorem takeHandover (h : s.InPlaces) (n : Nat) (e : SentEntry) : (s.takeHandover n e).InPlaces := by
  unfold State.takeHandover
  dsimp only
  split
  · exact h
  · split
    · exact h.answerRepeat n e
    · split
      · next ec => exact ((h.ofCreate ec).send ..).raise _ _
      · next ec => exact (h.ofCreate ec).send ..
      · next ec => exact (h.ofCreate ec).acceptHandover ..

theorem askRenewal (h : s.InPlaces) (d : Dir) : (s.askRenewal d).InPlaces := by
  have asked : ∀ {t : State} (n : Nat), t.InPlaces → (if n = 0 then t else t.send n (.renewAsk d)).InPlaces :=
    fun _ ht => .ite ht (ht.send ..)
  unfold State.askRenewal
  exact asked _ (asked _ (h.updHoeDir d _ fun _ hx => { hx with }))

theorem startRebuildTimer (h : s.InPlaces) : s.startRebuildTimer.InPlaces := by
  unfold State.startRebuildTimer
  split
  all_goals
    next e => exact (h.ofTimer e).setHoe { (h.ofTimer e).hoe with }

theorem startRebuild (h : s.InPlaces) : s.startRebuild.InPlaces :=
  (((h.askRenewal _).askRenewal _).startRebuildTimer).post _

theorem joinReceived (h : s.InPlaces) (d : Dir) (e : SentEntry) : (s.joinReceived d e).InPlaces :=
  h.updHoeDir d _ fun _ hx => { hx with received := joinHistory_room _ _ }

theorem placeAtBerth (h : s.InPlaces) (d : Dir) (p : Nat) (c : PlatformCfg) (e : SentEntry) :
    (s.placeAtBerth d p c e).1.InPlaces := by
  unfold State.placeAtBerth
  dsimp only
  split
  · next ec =>
    have h1 := fun t => ((h.ofCreate ec).setOccupant p t).joinReceived d e
    exact .ite ((h1 _).convert ..) (h1 _)
  · next ec => exact h.ofCreate ec

/-- The state that placing a candidate at a berth leaves. -/
theorem ofPlaceAtBerth (h : s.InPlaces) {d : Dir} {p : Nat} {c : PlatformCfg} {e : SentEntry} {t : State} {b : Bool}
    (x : s.placeAtBerth d p c e = (t, b)) : t.InPlaces := by
  have := h.placeAtBerth d p c e
  rwa [x] at this

theorem fillBerth (h : s.InPlaces) (d : Dir) (p : Nat) (c : PlatformCfg) (es : List SentEntry) :
    (s.fillBerth d p c es).1.InPlaces := by
  induction es generalizing s with
  | nil => exact h
  | cons e es ih =>
    unfold State.fillBerth
    split
    · next x => exact h.ofPlaceAtBerth x
    · next x => exact ih (h.ofPlaceAtBerth x)

theorem fillBerths (h : s.InPlaces) (d : Dir) (ps : List Nat) (es : List SentEntry) :
    (s.fillBerths d ps es).1.InPlaces := by
  induction ps generalizing s es with
  | nil => exact h
  | cons p ps ih =>
    unfold State.fillBerths
    split
    · exact ih (h.fillBerth ..) _
    · exact ih h es

theorem placeApproaching (h : s.InPlaces) (d : Dir) (e : SentEntry) : (s.placeApproaching d e).InPlaces := by
  unfold State.placeApproaching
  split
  · next ec => exact ((h.ofCreate ec).joinReceived d e).startWatch _
  · next ec => exact h.ofCreate ec

theorem leftBerths (h : s.InPlaces) (d : Dir) : (s.leftBerths d).InPlaces := by
  refine foldl (fun t p ht => ?_) h _
  split
  · exact ht.unknownArrival ..
  · exact ht

theorem placeDirection (h : s.InPlaces) (d : Dir) : (s.placeDirection d).InPlaces :=
  (foldl (fun _ e ht => ht.placeApproaching d e) (h.fillBerths d (s.emptyBerths d) (s.candidates d)) _).leftBerths d

theorem enterRunning (h : s.InPlaces) : s.enterRunning.InPlaces := { h with }

/-- The end of a rebuild sets counters and leaves the histories. -/
theorem endCounters {x : Hoe} (h : x.InPlaces) (b : Bool) : (x.endCounters b).InPlaces := by
  have side : ∀ {y : HoeDir}, y.InPlaces → y.endCounters.InPlaces := by
    intro y hy
    unfold HoeDir.endCounters
    split
    · exact { hy with }
    · exact hy
  unfold Hoe.endCounters
  split
  · exact ⟨side h.up, side h.down⟩
  · exact h

theorem finishRebuild (h : s.InPlaces) : s.finishRebuild.InPlaces := by
  have h1 := h.releaseOpt s.hoe.rebuildTimer
  refine ((State.InPlaces.placeDirection ?_ _).placeDirection _).enterRunning
  exact h1.setHoe { endCounters h1.hoe _ with }

theorem checkRebuild (h : s.InPlaces) : s.checkRebuild.InPlaces := .ite h.finishRebuild h

theorem rebuildExpires (h : s.InPlaces) : s.rebuildExpires.InPlaces := by
  refine State.InPlaces.checkRebuild ?_
  exact h.setHoe { up := { h.hoe.up with }, down := { h.hoe.down with } }

theorem answerRenewal (h : s.InPlaces) (n : Nat) (d : Dir) : (s.answerRenewal n d).InPlaces := by
  unfold State.answerRenewal
  have first : (if n == s.cfg.downstream d
      then s.send n (.renewReply d (s.hoeDir d).lastTaken (.sent (s.hoeDir d).sent)) else s).InPlaces :=
    .ite (h.send ..) h
  exact .ite (State.InPlaces.send first ..) first

theorem takeRenewal (h : s.InPlaces) (n : Nat) (d : Dir) (c : Option Nat) (x : RenewContent) :
    (s.takeRenewal n d c x).InPlaces := by
  unfold State.takeRenewal
  dsimp only
  split
  all_goals exact .ite ((h.updHoeDir d _ (by exact fun _ hx => { hx with })).post _) h

/-! ## Incident Unit -/

/-- A change of the INU that keeps its table within its places. -/
theorem setInu (h : s.InPlaces) {x : Inu} (hx : x.table.length ≤ incidentRoom) :
    ({ s with inu := x } : State).InPlaces :=
  { h with inu := hx }

theorem updInc (h : s.InPlaces) (id : IncId) (f : Incident → Incident) : (s.updInc id f).InPlaces :=
  h.setInu (map_room h.inu)

theorem markDirty (h : s.InPlaces) (id : IncId) : (s.markDirty id).InPlaces := .ite h (h.setInu h.inu)

theorem broadcastInc (h : s.InPlaces) (id : IncId) : (s.broadcastInc id).InPlaces := by
  unfold State.broadcastInc
  split
  · exact .ite ((h.send ..).updInc id _) h
  · exact h

theorem flushIncidents (h : s.InPlaces) : s.flushIncidents.InPlaces := by
  refine foldl (fun _ id ht => ht.broadcastInc id) ?_ _
  exact h.setInu h.inu

theorem actingMoved (h : s.InPlaces) : s.actingMoved.InPlaces := (h.post _).post _

theorem announceInc (h : s.InPlaces) (e : Incident) : (s.announceInc e).InPlaces := .ite (h.post _) h

theorem announceResume (h : s.InPlaces) (e : Incident) : (s.announceResume e).InPlaces := .ite (h.post _) h

theorem setRef (h : s.InPlaces) (e : Incident) : (s.setRef e).InPlaces := by
  unfold State.setRef
  split
  · refine .ite h ?_
    exact h.setTtu { h.ttu with table := map_room h.ttu.table }
  · exact h

theorem clearRef (h : s.InPlaces) (e : Incident) : (s.clearRef e).InPlaces := by
  unfold State.clearRef
  split
  · refine .ite h ?_
    exact h.setTtu { h.ttu with table := map_room h.ttu.table }
  · exact h

theorem checkLevel (h : s.InPlaces) : s.checkLevel.InPlaces := by
  have h1 : ({ s with inu := { s.inu with level := s.levelNow }, pins := { s.pins with alert := s.alertAt s.levelNow } }
      : State).InPlaces := { h with inu := h.inu }
  exact .ite h1 ((h1.post _).post _)

theorem dropEscalation (h : s.InPlaces) (id : IncId) : (s.dropEscalation id).InPlaces := (h.releaseOpt _).updInc id _

theorem startEscalation (h : s.InPlaces) (id : IncId) : (s.startEscalation id).InPlaces := by
  unfold State.startEscalation
  split
  · exact h
  · split
    · split
      · exact h
      · exact (h.requestTimer ..).updInc id _
    · exact h

theorem escalates (h : s.InPlaces) (id : IncId) : (s.escalates id).InPlaces := by
  have h1 := ((((h.dropEscalation id).updInc id (fun e => { e with severity := e.severity + 1 })).startEscalation
    id).markDirty id).post .levelCheck
  unfold State.escalates
  dsimp only
  split
  · exact .ite (h1.announceInc _) h1
  · exact h1

theorem clearInc (h : s.InPlaces) (id : IncId) : (s.clearInc id).InPlaces := by
  unfold State.clearInc
  split
  · exact h
  · next e _ =>
    have h1 := fun f => (((((h.dropEscalation id).updInc id f).actingMoved).post
      (.cancelSource (.incident (some id)) none)).announceResume e).clearRef e
    exact .ite ((h1 _).markDirty id) (h1 _)

theorem removeInc (h : s.InPlaces) (id : IncId) : (s.removeInc id).InPlaces :=
  h.setInu (filter_room h.inu)

theorem evict (h : s.InPlaces) (e : Incident) : (s.evict e).InPlaces := by
  have gone : ∀ {t : State}, t.InPlaces → ((((t.dropEscalation e.id).removeInc e.id).actingMoved.post
      (.cancelSource (.incident (some e.id)) none)).clearRef e).InPlaces :=
    fun ht => (((ht.dropEscalation _).removeInc _).actingMoved.post _).clearRef e
  exact gone (.ite (h.broadcastInc _) h)

/-- Room made for an entry is a free place (R121, R123). -/
theorem ofMakeRoom (h : s.InPlaces) {n : Nat} {t : State} (e : s.makeRoom n = some t) :
    t.InPlaces ∧ t.inu.table.length < incidentRoom := by
  have evicted : ∀ x ∈ s.inu.table, (s.evict x).InPlaces ∧ (s.evict x).inu.table.length < incidentRoom :=
    fun x hx => ⟨h.evict x, Nat.lt_of_lt_of_le (evict_table_length hx) h.inu⟩
  unfold State.makeRoom at e
  split at e
  · next hroom => cases e; exact ⟨h, hroom⟩
  · split at e
    · next x hx => cases e; exact evicted x (oldestCleared_mem hx)
    · obtain ⟨x, hx, rfl⟩ := Option.map_eq_some_iff.mp e
      exact evicted x (lowestPeer_mem hx)

theorem entersOpen (h : s.InPlaces) (e : Incident) : (s.entersOpen e).InPlaces := (h.actingMoved.announceInc e).setRef e

/-- An entry joins the table where a place is free. -/
theorem joinInu (h : s.InPlaces) (hroom : s.inu.table.length < incidentRoom) (e : Incident) :
    ({ s with inu := { s.inu with table := s.inu.table ++ [e] } } : State).InPlaces :=
  h.setInu (by rw [List.length_append, List.length_singleton]; omega)

theorem admitOwn (h : s.InPlaces) (hroom : s.inu.table.length < incidentRoom) (e : Incident) :
    (s.admitOwn e).InPlaces := by
  have h1 := ((h.joinInu hroom e).startEscalation e.id).markDirty e.id
  exact .ite (h1.setRef e).actingMoved (h1.entersOpen e)

theorem createInc (h : s.InPlaces) (r : Raise) : (s.createInc r).1.InPlaces := by
  have h1 : ∀ x : Nat, ({ s with inu := { s.inu with serial := x } } : State).InPlaces := fun _ => h.setInu h.inu
  unfold State.createInc
  dsimp only
  split
  · refine State.InPlaces.post ?_ _
    exact h.setInu h.inu
  · split
    · next e =>
      obtain ⟨ht, hroom⟩ := (h1 _).ofMakeRoom e
      exact ht.admitOwn hroom _
    · exact h1 _

theorem mergeEscalation (h : s.InPlaces) (e x : Incident) : (s.mergeEscalation e x).InPlaces :=
  .ite ((h.dropEscalation _).startEscalation _) (.ite (h.startEscalation _) h)

theorem mergeInc (h : s.InPlaces) (e : Incident) (r : Raise) : (s.mergeInc e r).InPlaces := by
  have h2 : ∀ x : Incident, (if x == e then (s.updInc e.id (fun _ => x)).mergeEscalation e x
      else (((s.updInc e.id (fun _ => x)).mergeEscalation e x).markDirty e.id).actingMoved).InPlaces :=
    fun x => .ite ((h.updInc _ _).mergeEscalation e x) (((h.updInc _ _).mergeEscalation e x).markDirty _).actingMoved
  exact .ite (.ite ((h2 _).entersOpen _) ((h2 _).setRef _)) (.ite ((h2 _).announceInc _) (h2 _))

theorem takeRaise (h : s.InPlaces) (r : Raise) : (s.takeRaise r).1.InPlaces := by
  unfold State.takeRaise
  split
  · split
    · exact h.mergeInc _ r
    · exact h.createInc r
  · exact h

theorem takeEnd (h : s.InPlaces) (k : IncKind) (l : Loc) : (s.takeEnd k l).InPlaces := by
  unfold State.takeEnd
  split
  · exact h
  · split
    · exact ((h.updInc _ _).markDirty _).actingMoved
    · exact h.clearInc _
    · exact h
    · exact h

theorem pointReport (h : s.InPlaces) (n v : Nat) : (s.pointReport n v).InPlaces := by
  unfold State.pointReport
  dsimp only
  split
  · exact .ite (h.post _) (h.raise _ _)
  · exact .ite (h.post _) (h.raise _ _)
  · exact .ite (h.post _) (h.raise _ _)
  · exact h
  · exact h

theorem firstPointReports (h : s.InPlaces) : s.firstPointReports.InPlaces := by
  refine foldl (fun t n ht => ?_) h _
  dsimp only
  split
  · exact .ite ht (ht.pointReport _ _)
  · exact ht

theorem ackDirective (h : s.InPlaces) (n : Nat) (id : IncId) : (s.ackDirective n id).1.InPlaces := by
  have h1 := h.updInc id (fun x => { x with ackBy := some n })
  unfold State.ackDirective
  split
  · exact h
  · split
    · exact h
    · dsimp only
      split
      · exact (((h1.dropEscalation id).updInc id _).markDirty id).actingMoved
      · exact h1.clearInc id
      · exact h
      · exact h

theorem clearDirective (h : s.InPlaces) (id : IncId) : (s.clearDirective id).1.InPlaces := by
  unfold State.clearDirective
  split
  · exact h
  · split
    · exact h
    · split
      · exact h
      · exact h.clearInc id

theorem declareDirective (h : s.InPlaces) (d : DeclareArgs) : (s.declareDirective d).1.InPlaces := by
  have h1 := h.takeRaise
    { kind := .operator, loc := d.loc, cover := d.cover.map some, severity := some d.severity,
      effects := some d.effects }
  unfold State.declareDirective
  dsimp only
  split
  all_goals next e => rw [e] at h1; exact h1

theorem overflowDirective (h : s.InPlaces) : s.overflowDirective.1.InPlaces := by
  refine State.InPlaces.post ?_ _
  exact h.setInu h.inu

theorem admitPeer (h : s.InPlaces) (b : IncidentBody) : (s.admitPeer b).InPlaces := by
  unfold State.admitPeer
  split
  · exact h.stepDrops
  · next e =>
    obtain ⟨ht, hroom⟩ := h.ofMakeRoom e
    have h1 := ((ht.joinInu hroom (peerEntry s.runTime b)).setRef (peerEntry s.runTime b)).actingMoved
    exact .ite (h1.announceInc _) h1

theorem updatePeer (h : s.InPlaces) (e : Incident) (b : IncidentBody) : (s.updatePeer e b).InPlaces := by
  have h1 := fun f => (h.updInc e.id f).actingMoved
  exact .ite h (.ite ((h.updInc _ _).clearInc _)
    (.ite (((h1 _).announceInc _).setRef _) (.ite ((h1 _).announceInc _) (h1 _))))

theorem takeIncident (h : s.InPlaces) (b : IncidentBody) : (s.takeIncident b).InPlaces := by
  unfold State.takeIncident
  split
  · exact h
  · split
    · exact h.updatePeer _ b
    · exact .ite (h.admitPeer b) h

theorem lingerEnds (h : s.InPlaces) (id : IncId) : (s.lingerEnds id).InPlaces := by
  unfold State.lingerEnds
  split
  · split
    · exact .ite (h.removeInc id) h
    · exact h
  · exact h

theorem peerAges (h : s.InPlaces) (id : IncId) : (s.peerAges id).InPlaces := by
  unfold State.peerAges
  split
  · split
    · exact .ite (h.clearInc id) h
    · exact h
  · exact h

theorem refreshInc (h : s.InPlaces) (id : IncId) : (s.refreshInc id).InPlaces := by
  unfold State.refreshInc
  split
  · exact .ite (h.markDirty id) h
  · exact h

theorem sendAllOwn (h : s.InPlaces) : s.sendAllOwn.InPlaces := foldl (fun _ e ht => ht.markDirty e.id) h _

end State.InPlaces

end Sys2Proof.Machine
end

section
/-! PROOFS. What is received, the Directive Checker, the end of an event and the start-up keep the places; so does every
command. -/

namespace Sys2Proof.Machine

open Sys2Proof

/-- Every list is within its places after reset. -/
theorem reset_inPlaces : State.reset.InPlaces where
  cfg := by simp [State.reset, NodeConfig.blank, LimitsFit]
  ttu := ⟨by decide, by decide, by decide⟩
  hoe := ⟨⟨by decide, by decide⟩, ⟨by decide, by decide⟩⟩
  secs := by decide
  sar := fun a ha => by
    obtain rfl : a = Arb.cold := List.eq_of_mem_replicate ha
    exact ⟨by decide, by decide, by decide⟩
  inu := by decide
  anu := ⟨by decide, by decide, by decide⟩
  tiu := ⟨by decide, by decide⟩
  lbc := ⟨fun c => by cases c <;> decide, by decide⟩
  slc := by decide

namespace State.InPlaces

variable {s : State}

/-! ## What the LBC receives -/

theorem joinRx (h : s.InPlaces) (t : Telegram) (bs : Bytes) : (s.joinRx t bs).InPlaces :=
  .ite (.ite (h.setLbc { h.lbc with }) h.stepOverruns) h

theorem receive (h : s.InPlaces) (m : Nat) (bs : Bytes) : (s.receive m bs).InPlaces := by
  have h1 := h.lineBit m
  unfold State.receive
  dsimp only
  split
  · split
    · exact .ite h1.stepDiscards (h1.joinRx _ _)
    · exact h1.stepDiscards
  · exact h1

theorem receiveFragment (h : s.InPlaces) (m : Nat) : (s.receiveFragment m).InPlaces :=
  .ite (h.lineBit _).stepDiscards (h.lineBit _)

theorem forward (h : s.InPlaces) (r : Received) : (s.forward r).InPlaces := by
  unfold State.forward
  split
  · exact h
  · split
    · exact h.view ..
    · exact h.view ..
    · exact h.view ..
    · exact h.view ..
    · exact h

/-- A telegram taken keeps the places when its block's part does. -/
theorem onReceived (h : s.InPlaces) (want : Body → Bool) {f : Received → State → State}
    (hf : ∀ r u, u.InPlaces → (f r u).InPlaces) : (s.onReceived want f).InPlaces := by
  unfold State.onReceived State.takeTelegram
  split
  · exact h
  · exact .ite (.ite (hf _ _ (h.popRx.forward _)) (h.popRx.forward _)) h

theorem becomePresent (h : s.InPlaces) (n : Nat) : (s.becomePresent n).InPlaces :=
  foldl (fun _ k ht => ht.endStandIn k) (h.updWatch n _) _

theorem becomeAbsent (h : s.InPlaces) (n : Nat) : (s.becomeAbsent n).InPlaces :=
  foldl (fun _ k ht => ht.beginStandIn k) ((h.updWatch n _).staleMirrors n) _

theorem ageWatch (h : s.InPlaces) (n : Nat) : (s.ageWatch n).InPlaces := by
  unfold State.ageWatch
  split
  · split
    · exact .ite (h.becomeAbsent n) h
    · exact h
  · exact h

theorem hearStatus (h : s.InPlaces) (n t : Nat) (b : StatusBody) : (s.hearStatus n t b).InPlaces := by
  unfold State.hearStatus
  split
  · exact h
  · exact .ite (h.updWatch n _) ((h.updWatch n _).becomePresent n)

theorem takeStatus (h : s.InPlaces) (r : Received) (b : StatusBody) : (s.takeStatus r b).InPlaces :=
  ((((h.hearStatus ..).keepOffset ..).setClockFrom ..).hoeStatus _).updateMirrors _ _

theorem formStatus (h : s.InPlaces) : s.formStatus.InPlaces := by
  have counted : ∀ n, ({ s with lbc := { s.lbc with mutePeriods := n } } : State).InPlaces :=
    fun n => h.setLbc { h.lbc with }
  unfold State.formStatus
  exact .ite (.ite (.ite (counted _) ((counted _).hand ..)) (h.hand ..)) h

theorem answerPlan (h : s.InPlaces) (t k n : Nat) (r : AnswerResult) : (s.answerPlan t k n r).InPlaces := h.send ..

theorem closeTransfer (h : s.InPlaces) (r : PlanResult) : (s.closeTransfer r).InPlaces := (h.releaseOpt _).endTransfer r

theorem openTransfer (h : s.InPlaces) (n i b r : Nat) : (s.openTransfer n i b r).InPlaces := by
  have h1 : s.dropPlanTimer.clearStaging.InPlaces := (h.releaseOpt _).clearStaging
  unfold State.openTransfer
  dsimp only
  split
  · next e => exact (h1.ofTimer e).setLbc { (h1.ofTimer e).lbc with }
  · next e => exact (h1.ofTimer e).endTransfer _

theorem takePlanOpen (h : s.InPlaces) (n i b r : Nat) : (s.takePlanOpen n i b r).InPlaces :=
  .ite h (.ite (h.answerPlan ..) (.ite (h.answerPlan ..) (.ite (h.answerPlan ..) ((h.openTransfer ..).answerPlan ..))))

theorem rejectTransfer (h : s.InPlaces) : s.rejectTransfer.InPlaces := (h.closeTransfer _).raise _ _

theorem takePlanBlock (h : s.InPlaces) (n i k : Nat) (es : List PlanEntry) : (s.takePlanBlock n i k es).InPlaces := by
  have h1 : (es.foldl State.stage s).InPlaces := foldl (fun _ e ht => ht.stage e) h es
  have h2 : ∀ x, ({ es.foldl State.stage s with lbc := { (es.foldl State.stage s).lbc with transfer := x } }
      : State).InPlaces := fun x => h1.setLbc { h1.lbc with }
  unfold State.takePlanBlock
  split
  · exact h
  · split
    · dsimp only
      split
      · exact (h2 _).reloadTimer ..
      · exact h2 _
    · exact h.rejectTransfer

theorem takePlanClose (h : s.InPlaces) (n i k : Nat) : (s.takePlanClose n i k).InPlaces := by
  have h1 := h.applyStaging
  unfold State.takePlanClose
  split
  · exact h
  · split
    · split
      · next e => rw [e] at h1; exact (h1.closeTransfer _).answerPlan ..
      · next e => rw [e] at h1; exact h1.rejectTransfer.answerPlan ..
    · exact h.rejectTransfer.answerPlan ..

theorem planExpires (h : s.InPlaces) : s.planExpires.InPlaces := h.closeTransfer _

/-! ## Directive Checker -/

theorem sendAnswer (h : s.InPlaces) (t : Nat) (b : AnswerBody) (n : TxNote) : (s.sendAnswer t b n).InPlaces :=
  .ite (h.view _ n) (h.send ..)

theorem storeAnswer (h : s.InPlaces) (i : Nat) (b : AnswerBody) : (s.storeAnswer i b).InPlaces := { h with }

theorem holdDirective (h : s.InPlaces) (r : Nat) (p : Option Nat) (b : Bool) : (s.holdDirective r p b).1.InPlaces := by
  unfold State.holdDirective
  split
  · exact h
  · exact h
  · exact (h.updRec _ _).post _

theorem withdrawDirective (h : s.InPlaces) (r : Nat) (p : Option Nat) : (s.withdrawDirective r p).1.InPlaces := by
  unfold State.withdrawDirective
  split
  · exact h
  · exact (h.updRec _ _).post _
  · split
    · exact h.setTtu { h.ttu with launch := map_room h.ttu.launch }
    · exact h

theorem insertApproaching (h : s.InPlaces) (a : InsertArgs) : (s.insertApproaching a).1.InPlaces := by
  unfold State.insertApproaching
  split
  · next e => exact (h.ofCreate e).startWatch _
  · next e => exact h.ofCreate e

theorem insertAtBerth (h : s.InPlaces) (a : InsertArgs) (p : Nat) : (s.insertAtBerth a p).1.InPlaces := by
  unfold State.insertAtBerth
  split
  · exact (h.updRec _ _).post _
  · split
    · next e => exact ((h.ofCreate e).setOccupant ..).post _
    · next e => exact h.ofCreate e

theorem insertDirective (h : s.InPlaces) (a : InsertArgs) : (s.insertDirective a).1.InPlaces := by
  unfold State.insertDirective
  split
  · exact h
  · split
    · exact h.insertApproaching a
    · split
      · exact h
      · split
        · exact h.insertAtBerth a _
        · exact h.insertApproaching a

theorem announceDirective (h : s.InPlaces) (n : Nat) (a : AnnounceArgs) : (s.announceDirective n a).1.InPlaces := by
  unfold State.announceDirective
  split
  · exact h
  · split
    all_goals next e => exact h.ofTakeRequest e

theorem cancelDirective (h : s.InPlaces) (t : Nat) (l : List Nat) (z : BitVec 5) :
    (s.cancelDirective t l z).1.InPlaces := by
  have h1 := h.cancelSame t l z
  unfold State.cancelDirective
  split
  all_goals next e => rw [e] at h1; exact h1

theorem dayDirective (h : s.InPlaces) (t : Nat) : (s.dayDirective t).1.InPlaces := by
  unfold State.dayDirective
  split
  · exact h
  · exact (h.setClockTo t).purgeLaunch

/-- Every owner of a directive keeps the places. -/
theorem carryOut (h : s.InPlaces) (n : Nat) (d : Directive) : (s.carryOut n d).1.InPlaces := by
  cases d with
  | ackIncident i => exact h.ackDirective n i
  | holdTrain r p => exact h.holdDirective r p true
  | releaseTrain r p => exact h.holdDirective r p false
  | announce a => exact h.announceDirective n a
  | cancelAnnounce t l z => exact h.cancelDirective t l z
  | declareIncident d => exact h.declareDirective d
  | clearIncident i => exact h.clearDirective i
  | withdrawRun r p => exact h.withdrawDirective r p
  | insertRun a => exact h.insertDirective a
  | setMode m p => exact h.setModeDirective m p
  | isolateSection i => exact h.isolateDirective i
  | restoreSection i => exact h.restoreDirective i
  | clearOverflow => exact h.overflowDirective
  | dayStart t => exact h.dayDirective t
  | fieldQuery | restartNode | unknown => exact h

theorem orderRestart (h : s.InPlaces) (d : Directive) : (s.orderRestart d).1.InPlaces := by
  unfold State.orderRestart
  split
  · split
    · exact { h with }
    · exact h
  · exact h

theorem ownerStep (h : s.InPlaces) (i n k : Nat) (d : Directive) : (s.ownerStep i n k d).InPlaces :=
  (((h.carryOut n d).storeAnswer i _).orderRestart d).sendAnswer ..

theorem refuseStep (h : s.InPlaces) (i n k : Nat) (d : Directive) (r : AnswerResult) :
    (s.refuseStep i n k d r).InPlaces := (h.storeAnswer i _).sendAnswer ..

theorem checkDirective (h : s.InPlaces) (i l n k : Nat) (d : Directive) : (s.checkDirective i l n k d).InPlaces :=
  .ite (h.refuseStep ..) (.ite (h.refuseStep ..) (.ite (h.refuseStep ..) (h.ownerStep ..)))

theorem takeDirective (h : s.InPlaces) (n k : Nat) (d : Directive) : (s.takeDirective n k d).InPlaces := by
  unfold State.takeDirective
  split
  · exact h
  · exact h
  · exact h
  · exact h.sendAnswer ..
  · split
    · exact h.sendAnswer ..
    · split
      · exact h.sendAnswer ..
      · split
        · exact h.checkDirective ..
        · exact h

theorem localResult (h : s.InPlaces) (r : Report) (x : AnswerResult) : (s.localResult r x).InPlaces := h.view _ _

/-- An entry joins the outgoing plan buffer where it has room (R187). -/
theorem appendEntry (h : s.InPlaces) (hroom : s.ttu.launch.length < launchRoom) (e : PlanEntry) :
    (s.appendEntry e).InPlaces :=
  h.setTtu { h.ttu with launch := by rw [List.length_append, List.length_singleton]; omega }

theorem takeOrder (h : s.InPlaces) (r : Report) : (s.takeOrder r).InPlaces := by
  cases r with
  | directive t k d => exact .ite (h.localResult ..) (.ite (h.takeDirective ..) (h.send ..))
  | planClear =>
    refine .ite (h.localResult ..) (State.InPlaces.localResult ?_ ..)
    exact h.setTtu { h.ttu with launch := Nat.zero_le _ }
  | planEntry e =>
    unfold State.takeOrder
    dsimp only
    split
    · exact h.localResult ..
    · next hroom => exact .ite (h.localResult ..) ((h.appendEntry (Nat.lt_of_not_le hroom) e).localResult ..)
  | planSend t i => exact .ite (h.localResult ..) (.ite (h.localResult ..) ((h.handStage _).localResult ..))
  | point | sweepBegin | sweepEnd => exact h

theorem workstation (h : s.InPlaces) (r : Report) : (s.workstation r).InPlaces :=
  .ite (h.takeOrder r) (h.localResult ..)

/-! ## The end of an event -/

theorem sectionMoved (h : s.InPlaces) (k : Nat) : (s.sectionMoved k).InPlaces :=
  (h.recomputeHolds.feedWatches).reevaluate k

theorem sectionTimerEnds (h : s.InPlaces) (k : Nat) : (s.sectionTimerEnds k).InPlaces := by
  unfold State.sectionTimerEnds
  split
  · exact h.reclose k
  · exact h.lockOut k
  · exact h.lockOut k
  · exact h

/-- The owner of every timer keeps the places as it takes an expiry. -/
theorem ownerExpires (h : s.InPlaces) (o : TimerOwner) : (s.ownerExpires o).InPlaces := by
  cases o with
  | powerWait p => exact h.powerWaitExpires p
  | handoverRetry t => exact h.retryEnds t
  | stallWatch t => exact h.watchExpires t
  | rebuild => exact .ite h.rebuildExpires h
  | sectionTimer k => exact h.sectionTimerEnds k
  | escalation n => exact h.escalates _
  | wake => exact h.wakeExpired
  | player => exact h.playerExpired
  | plan => exact h.planExpires
  | dwell | statusPeriod => exact h

/-- The block that takes a request keeps the places. -/
theorem handleMsg (h : s.InPlaces) (m : Msg) : (Machine.handleMsg m s).InPlaces := by
  cases m with
  | raise r => exact h.takeRaise r
  | condEnd k l => exact h.takeEnd k l
  | levelCheck => exact h.checkLevel
  | actingChanged => exact h.recomputeHolds.checkCuts
  | holdRecompute => exact h.recomputeHolds
  | compute p t => exact h.compute p t
  | sectionChanged k => exact h.sectionMoved k
  | grant p n o k => exact h.takeGrant p n o k
  | defer => exact h
  | tagGone t r => exact (h.contextsGone t).hoeGone t r
  | enteredHanding t => exact h.openHandover t
  | tookBerth t r => exact h.watchBerthed t r
  | announce r => exact h.handleAnnounce r
  | cancelSource x t => exact h.cancelPair x t
  | select => exact h.select
  | pump => exact h.pump
  | boundary => exact h.boundary
  | rebuildCheck => exact h.checkRebuild
  | timerExpired o => exact h.ownerExpires o

/-- The requests waiting are no place that the manual limits. -/
theorem setWork (h : s.InPlaces) (ms : List Msg) : ({ s with work := ms } : State).InPlaces := { h with }

theorem takeFirst (h : s.InPlaces) : s.takeFirst.InPlaces := by
  unfold State.takeFirst
  split
  · exact h
  · exact ((h.setWork []).handleMsg _).setWork _

theorem settleN (h : s.InPlaces) (n : Nat) : (Machine.settleN n s).InPlaces := by
  induction n generalizing s with
  | zero => exact h
  | succ n ih => exact .ite h (ih h.takeFirst)

theorem cutShort (h : s.InPlaces) : s.cutShort.InPlaces := { h with inu := h.inu }

theorem finish (h : s.InPlaces) : (Machine.finish s).InPlaces :=
  (State.InPlaces.ite (h.settleN _) (h.settleN _).cutShort).flushIncidents

/-! ## Clock, start-up, field and track -/

theorem rebuildPeriod (h : s.InPlaces) : s.rebuildPeriod.InPlaces := by
  unfold State.rebuildPeriod
  split
  · refine .ite h.rebuildExpires ?_
    exact h.setHoe { h.hoe with }
  · exact h

theorem statusPeriod (h : s.InPlaces) : s.statusPeriod.InPlaces :=
  have h1 := (h.updChan 4 _).rebuildPeriod.formStatus
  .ite h1.showLines h1

theorem coldStart (s : State) : s.coldStart.InPlaces := { reset_inPlaces with }

theorem setReset (h : s.InPlaces) (b : Bool) : (s.setReset b).InPlaces := { h with }

theorem raiseLostLink (h : s.InPlaces) : s.raiseLostLink.InPlaces := .ite (h.raise _ _) h

theorem authoritiesOff (h : s.InPlaces) : s.authoritiesOff.InPlaces := foldl (fun _ p ht => ht.authorityOff p) h _

theorem beginListen (h : s.InPlaces) : s.beginListen.InPlaces := { h with slc := h.slc }

theorem enterListen (h : s.InPlaces) : s.enterListen.InPlaces :=
  ((((h.beginListen.initWatched.startStatusPeriod.startFilters.authoritiesOff).requestSweep
    .start).startGates.firstBreakerReports).firstPointReports).raiseLostLink

theorem enterFault (h : s.InPlaces) : s.enterFault.InPlaces :=
  { h with cfg := reset_inPlaces.cfg, slc := Nat.zero_le _ }

/-- The constants of an image that passes its checks keep the limits of 5.1. -/
theorem setCfg (h : s.InPlaces) {c : NodeConfig} (hc : LimitsFit c) : ({ s with cfg := c } : State).InPlaces :=
  { h with cfg := hc }

theorem enterRebuild (h : s.InPlaces) : s.enterRebuild.InPlaces := by
  refine (State.InPlaces.sendAllOwn ?_).startRebuild
  exact { h with }

theorem warmState (h : s.InPlaces) : s.warmState.InPlaces :=
  { reset_inPlaces with
    cfg := h.cfg
    ttu := { reset_inPlaces.ttu with launch := h.ttu.launch }
    inu := reset_inPlaces.inu
    tiu := { reset_inPlaces.tiu with }
    lbc := { reset_inPlaces.lbc with } }

theorem frame (h : s.InPlaces) (f : InFrame) : (s.frame f).InPlaces := by
  have h1 : ({ s with slc := { s.slc with lastValid := s.runTime } } : State).restoreLink.InPlaces := by
    refine State.InPlaces.restoreLink ?_
    exact h.setSlc h.slc
  unfold State.frame
  cases f with
  | idle => exact h1
  | report r => exact .ite (h1.joinReports r) h1

theorem takePoint (h : s.InPlaces) (n v : Nat) : (s.takePoint n v).InPlaces := by
  have h1 := h.setPoint n v
  unfold State.takePoint
  split
  · exact h
  · dsimp only
    split
    · split
      · exact h1.breakerReport _ _
      · exact h1.pointReport n v
      · exact h1.pointReport n v
      · exact h1.pointReport n v
      · exact h1
    · exact h1

theorem takeReport (h : s.InPlaces) (want : Report → Bool) {f : Report → State → State}
    (hf : ∀ r u, u.InPlaces → (f r u).InPlaces) : (s.takeReport want f).InPlaces := by
  unfold State.takeReport
  split
  · exact h
  · refine .ite (hf _ _ ?_) h
    exact h.setSlc h.slc

theorem setMoment (h : s.InPlaces) (m : Nat) : ({ s with refMoment := m } : State).InPlaces := { h with }

theorem atCycle (h : s.InPlaces) (c : Nat) (o : Nat → Bool) {f : Nat → State → State}
    (hf : ∀ m u, u.InPlaces → (f m u).InPlaces) : (s.atCycle c o f).InPlaces := by
  unfold State.atCycle
  split
  · exact .ite (hf _ _ (h.setMoment _)) h
  · exact h

theorem accept (h : s.InPlaces) (i : Nat) (x : Nat × Candidate) : (s.accept i x).InPlaces :=
  (h.setMoment x.1).updTrack i _

end State.InPlaces

/-! ## Outcomes -/

/-- The next state, where an outcome has one, is within its places. -/
def NextInPlaces : Host.Outcome State Fault Refusal → Prop
  | .next t => t.InPlaces
  | .fault _ | .refused _ => True

namespace State.InPlaces

variable {s : State}

/-- An event keeps the places when its own effect does. -/
theorem onEvent (h : s.InPlaces) (o : Bool) {f : State → State} (hf : (f s).InPlaces) :
    NextInPlaces (Machine.onEvent s o f) := .ite hf.finish h

theorem onReceivedKind (h : s.InPlaces) (want : Body → Bool) {f : Received → State → State}
    (hf : ∀ r u, u.InPlaces → (f r u).InPlaces) : NextInPlaces (Machine.onReceivedKind s want f) :=
  h.onEvent _ (h.onReceived want hf)

theorem onKind (h : s.InPlaces) (want : Body → Bool) {f : Telegram → State → State}
    (hf : ∀ t u, u.InPlaces → (f t u).InPlaces) : NextInPlaces (Machine.onKind s want f) :=
  h.onEvent _ (h.onReceived want fun r u hu => hf r.tg u hu)

theorem onDirectiveKind (h : s.InPlaces) (want : Directive → Bool) : NextInPlaces (Machine.onDirectiveKind s want) := by
  refine h.onKind _ fun t u hu => ?_
  split
  · exact hu.takeDirective ..
  · exact hu

theorem onReport (h : s.InPlaces) (want : Report → Bool) {f : Report → State → State}
    (hf : ∀ r u, u.InPlaces → (f r u).InPlaces) : NextInPlaces (Machine.onReport s want f) :=
  h.onEvent _ (h.takeReport want hf)

theorem onPlatform (h : s.InPlaces) (p : Nat) (o : Bool) {f : PlatformCfg → State → State}
    (hf : ∀ c, (f c s).InPlaces) : NextInPlaces (Machine.onPlatform s p o f) := by
  unfold Machine.onPlatform
  split
  · exact h.onEvent _ (hf _)
  · exact h.onEvent _ h

theorem onCycle (h : s.InPlaces) (c : Nat) (o : Nat → Bool) {f : Nat → State → State}
    (hf : ∀ m u, u.InPlaces → (f m u).InPlaces) : NextInPlaces (Machine.onCycle s c o f) :=
  h.onEvent _ (h.atCycle c o hf)

theorem onEdge (h : s.InPlaces) (i c : Nat) (a : Bool) (use : TrackUse → Option Nat)
    {f : Nat → Option Nat → State → State} (hf : ∀ p t u, u.InPlaces → (f p t u).InPlaces) :
    NextInPlaces (Machine.onEdge s i c a use f) := by
  unfold Machine.onEdge
  split
  · exact h.onEvent _ (hf _ _ _ (h.accept i _))
  · exact h.onEvent _ h

end State.InPlaces
/-! ## Commands -/

namespace State.InPlaces

variable {s : State}

theorem execImageChecked (h : s.InPlaces) (image : Bytes) : NextInPlaces (Machine.execImageChecked image s) := by
  refine h.onEvent _ ?_
  split
  · next hc => exact (h.setCfg (parseImage_limits _ _ hc)).enterListen
  · exact h.enterFault

theorem execTick (h : s.InPlaces) : NextInPlaces (Machine.execTick s) := .ite (h.setMoment _) h.tickAll

theorem execFirstLevel (h : s.InPlaces) (i c : Nat) : NextInPlaces (Machine.execFirstLevel i c s) := by
  unfold Machine.execFirstLevel
  split
  · refine h.onEvent _ ?_
    dsimp only
    split
    · exact (h.accept i _).firstBerthLevel ..
    · exact h.accept i _
  · exact h.onEvent _ h

theorem execHandover (h : s.InPlaces) : NextInPlaces (Machine.execHandover s) := by
  refine h.onKind _ fun t u hu => ?_
  split
  · exact hu.takeHandover ..
  · exact hu

theorem execTakeover (h : s.InPlaces) : NextInPlaces (Machine.execTakeover s) := by
  refine h.onKind _ fun t u hu => ?_
  split
  · split
    · exact hu.endHandover ..
    · exact hu
  · exact hu

theorem execRefusal (h : s.InPlaces) : NextInPlaces (Machine.execRefusal s) := by
  refine h.onKind _ fun t u hu => ?_
  split
  · split
    · exact hu.takeRefusal ..
    · exact hu
  · exact hu

theorem execRenewAsk (h : s.InPlaces) : NextInPlaces (Machine.execRenewAsk s) := by
  refine h.onKind _ fun t u hu => ?_
  split
  · exact .ite (hu.answerRenewal ..) hu
  · exact hu

theorem execRenewReply (h : s.InPlaces) : NextInPlaces (Machine.execRenewReply s) := by
  refine h.onKind _ fun t u hu => ?_
  split
  · exact .ite (hu.takeRenewal ..) hu
  · exact hu

theorem execPowerAsk (h : s.InPlaces) : NextInPlaces (Machine.execPowerAsk s) := by
  refine h.onKind _ fun t u hu => ?_
  split
  · split
    · exact .ite (hu.ownerAsk ..) hu
    · exact hu
  · exact hu

theorem execPowerReturn (h : s.InPlaces) : NextInPlaces (Machine.execPowerReturn s) := by
  refine h.onKind _ fun t u hu => ?_
  split
  · split
    · exact .ite (hu.ownerReturn ..) hu
    · exact hu
  · exact hu

theorem execPowerGrant (h : s.InPlaces) : NextInPlaces (Machine.execPowerGrant s) := by
  refine h.onKind _ fun t u hu => ?_
  split
  · split
    · exact .ite (hu.askerGrant ..) hu
    · exact hu
  · exact hu

theorem execPowerDefer (h : s.InPlaces) : NextInPlaces (Machine.execPowerDefer s) := by
  refine h.onKind _ fun t u hu => ?_
  split
  · split
    · exact .ite (hu.askerDefer ..) hu
    · exact hu
  · exact hu

theorem execIncident (h : s.InPlaces) : NextInPlaces (Machine.execIncident s) := by
  refine h.onKind _ fun t u hu => ?_
  split
  · exact hu.takeIncident _
  · exact hu

theorem execStatus (h : s.InPlaces) : NextInPlaces (Machine.execStatus s) := by
  refine h.onReceivedKind _ fun r u hu => ?_
  split
  · exact hu.takeStatus r _
  · exact hu

theorem execPlanOpen (h : s.InPlaces) : NextInPlaces (Machine.execPlanOpen s) := by
  refine h.onKind _ fun t u hu => ?_
  split
  · exact hu.takePlanOpen ..
  · exact hu

theorem execPlanBlock (h : s.InPlaces) : NextInPlaces (Machine.execPlanBlock s) := by
  refine h.onKind _ fun t u hu => ?_
  split
  · exact hu.takePlanBlock ..
  · exact hu

theorem execPlanClose (h : s.InPlaces) : NextInPlaces (Machine.execPlanClose s) := by
  refine h.onKind _ fun t u hu => ?_
  split
  · exact hu.takePlanClose ..
  · exact hu

theorem execValidFrame (h : s.InPlaces) (bs : Bytes) : NextInPlaces (Machine.execValidFrame bs s) := by
  unfold Machine.execValidFrame
  split
  · exact h.onEvent _ (h.frame _)
  · exact h.onEvent _ h

theorem execPoint (h : s.InPlaces) : NextInPlaces (Machine.execPoint s) := by
  refine h.onReport _ fun r u hu => ?_
  split
  · exact hu.takePoint ..
  · exact hu

/-- Every command keeps the places, event by event in the order of the command table. -/
theorem exec (h : s.InPlaces) (c : Instr) : NextInPlaces (Machine.exec c s) := by
  unfold Machine.exec
  cases c with
  | powerOn => exact { reset_inPlaces with }
  | resetAssert => exact .ite h ((coldStart s).setReset _)
  | resetRelease => exact .ite ((coldStart s).setReset _) h
  | imageChecked image => exact h.execImageChecked image
  | listenEnd => exact h.onEvent _ h.enterRebuild
  | rebuildTimerExpiry => exact h.onEvent _ h.rebuildExpires
  | warmStart => exact h.onEvent _ h.warmState.enterListen
  | tick => exact h.execTick
  | clockTrim => exact h.onEvent _ h.trimClock
  | statusPeriod => exact h.onEvent _ h.statusPeriod
  | trackInputChange i c b => exact h.atCycle _ _ fun m u hu => hu.pinChange i m b
  | firstLevel i c => exact h.execFirstLevel i c
  | berthRise i c => exact h.onEdge i c _ _ fun p t u hu => hu.riseAt p t
  | brakePointRise i c => exact h.onEdge i c _ _ fun p t u hu => hu.brakeAt p t
  | berthFall i c => exact h.onEdge i c _ _ fun p t u hu => hu.fallAt p t
  | brakePointFall i c => exact h.onEdge i c _ _ fun _ _ _ hu => hu
  | dwellMark p => exact h.onPlatform p _ fun c => (h.takeMark p).takeTheMark p c
  | dwellExpiry p => exact h.onPlatform p _ fun c => (h.takeDwellExpiry p).targetExpires p c
  | authWaitExpiry p => exact h.onPlatform p _ fun c => (h.takeDwellExpiry p).authExpires p c
  | cueWaitExpiry p => exact h.onPlatform p _ fun _ => (h.takeDwellExpiry p).cueWaitExpires p
  | powerWaitExpiry p => exact h.onPlatform p _ fun _ => h.powerWaitExpires p
  | handoverRetryExpiry t => exact h.onEvent _ (h.retryExpires t)
  | orphanRetryExpiry t => exact h.onEvent _ (h.endOrphanRetry t)
  | handover => exact h.execHandover
  | takeover => exact h.execTakeover
  | refusal => exact h.execRefusal
  | stallWatchExpiry t => exact h.onEvent _ (h.watchExpires t)
  | renewAsk => exact h.execRenewAsk
  | renewReply => exact h.execRenewReply
  | gateCompletion k n => exact h.onEvent _ (h.gateEnds k n)
  | recloseDelayExpiry k => exact h.onEvent _ (h.reclose k)
  | closeAllowanceExpiry k => exact h.onEvent _ (h.lockOut k)
  | countedStartExpiry k => exact h.onEvent _ (h.countedEnd k)
  | retryWaitEnd p => exact h.onEvent _ (h.presentAgain p)
  | askWaitEnd p => exact h.onEvent _ (h.askAgain p)
  | powerAsk => exact h.execPowerAsk
  | queuedAskRefreshExpiry k => exact h.onEvent _ (h.unheardAsk k)
  | powerReturn => exact h.execPowerReturn
  | powerGrant => exact h.execPowerGrant
  | powerDefer => exact h.execPowerDefer
  | takenStartExpiry k => exact h.onEvent _ (h.takenEnd k)
  | clearedLingerEnd n k => exact h.onEvent _ (h.lingerEnds _)
  | escalationExpiry k => exact h.onEvent _ (h.escalates _)
  | incident => exact h.execIncident
  | peerAgeing n k => exact h.onEvent _ (h.peerAges _)
  | incidentRefresh k => exact h.onEvent _ (h.refreshInc _)
  | wakeTimerExpiry => exact h.onEvent _ h.wakeExpired
  | readyRise => exact .ite h h.readyRises.finish
  | readyFall => exact .ite h.readyFalls.finish h
  | playerTimerExpiry => exact h.onEvent _ h.playerExpired
  | transmitStart c q e => exact h.onCycle c _ fun m u hu => hu.transmit m q e
  | telegramSent c => exact h.onCycle c _ fun m u hu => hu.sentWhole m
  | collision c => exact h.onCycle c _ fun m u hu => hu.collide m
  | echoFault c => exact h.onCycle c _ fun _ u hu => hu.faultEcho
  | lineBusFaultQuietEnd => exact h.onEvent _ h.endLineFault
  | telegramReceived c bs => exact h.onCycle c _ fun m u hu => hu.receive m bs
  | fragment c bs => exact h.onCycle c _ fun m u hu => hu.receiveFragment m
  | status => exact h.execStatus
  | neighbourAbsent n => exact h.onEvent _ (h.ageWatch n)
  | planOpen => exact h.execPlanOpen
  | planBlock => exact h.execPlanBlock
  | planClose => exact h.execPlanClose
  | planTimerExpiry => exact h.onEvent _ h.planExpires
  | answer => exact h.onKind _ fun _ _ hu => hu
  | validFrame bs => exact h.execValidFrame bs
  | point => exact h.execPoint
  | sweepBegin => exact h.onReport _ fun _ _ hu => .ite hu hu.beginSweep
  | sweepEnd => exact h.onReport _ fun _ _ hu => hu.endSweep
  | sweepWaitEnd => exact h.onEvent _ h.sweepOverdue
  | stationLinkSilence | stationLinkBreak => exact h.onEvent _ h.loseLink
  | commandFrameSent => exact h.onEvent _ h.commandSent
  | workstationDirective | planClear | planEntry | planSend => exact h.onReport _ fun r _ hu => hu.workstation r
  | restartNode | isolateSection | restoreSection | ackIncident | clearIncident | declareIncident | clearOverflow
  | announce | cancelAnnounce | unknownDirective | holdTrain | releaseTrain | withdrawRun | insertRun | setMode
  | fieldQuery | dayStart => exact h.onDirectiveKind _

end State.InPlaces

/-- Settles O2: every step keeps the bound of every list. -/
theorem stepKeepsPlaces : Obligations.StepKeepsPlaces := by
  intro s t hs ht
  have h := s.inPlaces_iff.mpr hs
  unfold step at ht
  split at ht
  · cases ht
    exact hs
  · next c rest _ =>
    have hc := State.InPlaces.exec (s := { s with pending := rest }) { h with } c
    rw [ht] at hc
    exact t.inPlaces_iff.mp hc

end Sys2Proof.Machine
end

section
/-! PROOFS. The state after reset; the track inputs: what an accepted level does before RUNNING and in it. -/

namespace Sys2Proof.Machine

open Sys2Proof

/-- Settles O5: reset leaves nothing to take and every list within its places. -/
theorem resetIsAtRest : Obligations.ResetIsAtRest := by
  have quiet : State.reset.Quiet := ⟨rfl, rfl⟩
  have inputs : State.reset.InputsFit := ⟨by decide, by decide, by decide, by decide⟩
  have level : State.reset.LevelFits := by
    refine ⟨by decide, by decide, List.nodup_nil, fun e he => ?_, fun _ => ⟨rfl, rfl⟩⟩
    cases he
  exact ⟨quiet, inputs, (State.inPlaces_iff _).mp reset_inPlaces, level, fun h => nomatch h⟩

/-! ## Accepted levels -/

theorem accepts_eq_some {s : State} {i cycle m : Nat} {first : Bool} {c : Candidate} (hm : s.momentAt cycle = some m)
    (hc : s.acceptable i m first = some c) : s.accepts i cycle first = some (m, c) := by
  simp [State.accepts, hm, hc]

/-- An accepted edge at an input of the use wanted takes its level, and its block takes the edge. -/
theorem onEdge_taken {s : State} {i cycle m p : Nat} {c : Candidate} {active : Bool} {use : TrackUse → Option Nat}
    (f : Nat → Option Nat → State → State) (hr : s.Ready) (hm : s.momentAt cycle = some m)
    (hc : s.acceptable i m false = some c) (hu : use (s.trackCfg i).use = some p) (ha : c.active = active) :
    onEdge s i cycle active use f = .next (finish (f p c.stamp (s.levelAccepted i m c))) := by
  simp only [onEdge, accepts_eq_some hm hc, hu]
  exact onEvent_taken s _ _ hr.1 (by simp [ha])

theorem execBerthRise_taken {s : State} {i cycle m p : Nat} {c : Candidate} (hr : s.Ready)
    (hm : s.momentAt cycle = some m) (hc : s.acceptable i m false = some c) (hu : (s.trackCfg i).use = .berth p)
    (ha : c.active = true) :
    exec (.berthRise i cycle) s = .next (finish ((s.levelAccepted i m c).riseAt p c.stamp)) :=
  onEdge_taken (use := berthOf) (fun p t s => s.riseAt p t) hr hm hc (by rw [hu]; rfl) ha

theorem execBerthFall_taken {s : State} {i cycle m p : Nat} {c : Candidate} (hr : s.Ready)
    (hm : s.momentAt cycle = some m) (hc : s.acceptable i m false = some c) (hu : (s.trackCfg i).use = .berth p)
    (ha : c.active = false) :
    exec (.berthFall i cycle) s = .next (finish ((s.levelAccepted i m c).fallAt p c.stamp)) :=
  onEdge_taken (use := berthOf) (fun p t s => s.fallAt p t) hr hm hc (by rw [hu]; rfl) ha

theorem execBrakePointRise_taken {s : State} {i cycle m p : Nat} {c : Candidate} (hr : s.Ready)
    (hm : s.momentAt cycle = some m) (hc : s.acceptable i m false = some c) (hu : (s.trackCfg i).use = .brake p)
    (ha : c.active = true) :
    exec (.brakePointRise i cycle) s = .next (finish ((s.levelAccepted i m c).brakeAt p c.stamp)) :=
  onEdge_taken (use := brakeOf) (fun p t s => s.brakeAt p t) hr hm hc (by rw [hu]; rfl) ha

/-- The level alone is the whole event where nothing was left to take. -/
theorem finish_levelAccepted {s : State} (i m : Nat) (c : Candidate) (hr : s.Ready) :
    finish (s.levelAccepted i m c) = s.levelAccepted i m c := finish_quiet (s.levelAccepted i m c) hr.2

/-- An accepted first level at a BERTH input is given to the TTU. -/
theorem execFirstLevel_berth {s : State} {i cycle m p : Nat} {c : Candidate} (hr : s.Ready)
    (hm : s.momentAt cycle = some m) (hc : s.acceptable i m true = some c) (hu : (s.trackCfg i).use = .berth p) :
    exec (.firstLevel i cycle) s =
      .next (finish ((s.levelAccepted i m c).firstBerthLevel p c.active c.stamp)) := by
  have hp : berthOf (s.trackCfg i).use = some p := by rw [hu]; rfl
  simp only [exec, execFirstLevel, accepts_eq_some hm hc]
  refine (onEvent_taken s _ _ hr.1 rfl).trans ?_
  simp only [hp]
  rfl

/-- An accepted first level at a BRAKE input changes nothing but the level. -/
theorem execFirstLevel_brake {s : State} {i cycle m p : Nat} {c : Candidate} (hr : s.Ready)
    (hm : s.momentAt cycle = some m) (hc : s.acceptable i m true = some c) (hu : (s.trackCfg i).use = .brake p) :
    exec (.firstLevel i cycle) s = .next (s.levelAccepted i m c) := by
  have hp : berthOf (s.trackCfg i).use = none := by rw [hu]; rfl
  simp only [exec, execFirstLevel, accepts_eq_some hm hc]
  refine (onEvent_taken s _ _ hr.1 rfl).trans ?_
  simp only [hp]
  exact congrArg _ (finish_levelAccepted i m c hr)

/-- A change of one platform's dynamic fields is the whole event where nothing was left to take. -/
theorem finish_updPlat {s : State} (i m p : Nat) (c : Candidate) (f : PlatDyn → PlatDyn) (hr : s.Ready) :
    finish ((s.levelAccepted i m c).updPlat p f) = (s.levelAccepted i m c).updPlat p f := finish_quiet _ hr.2

/-! ## Berth levels -/

/-- Before RUNNING a rise changes the occupancy alone. -/
theorem riseAt_before {s : State} {p : Nat} {x : PlatformCfg} (t : Option Nat) (hs : s.cfl.start ≠ .running)
    (hx : s.pcfg p = some x) : s.riseAt p t = s.occupy p t := by
  simp [State.riseAt, hx, State.isRunning, State.occupy, hs]

/-- In RUNNING the oldest APPROACHING record of the arrival direction takes the berth. -/
theorem riseAt_known {s : State} {p : Nat} {x : PlatformCfg} {r : TrainRec} (t : Option Nat)
    (hs : s.cfl.start = .running) (hx : s.pcfg p = some x) (ho : s.oldestApproaching (arrivalDirOf x) = some r) :
    s.riseAt p t = (s.occupy p t).takeBerth p x r t := by
  have ho' : (s.occupy p t).oldestApproaching (arrivalDirOf x) = some r := ho
  have hrun : (s.occupy p t).isRunning = true := beq_iff_eq.mpr hs
  unfold State.riseAt
  simp only [hx, hrun, ho', if_true]

/-- In RUNNING a rise with no APPROACHING record is an unknown arrival. -/
theorem riseAt_unknown {s : State} {p : Nat} {x : PlatformCfg} (t : Option Nat) (hs : s.cfl.start = .running)
    (hx : s.pcfg p = some x) (ho : s.oldestApproaching (arrivalDirOf x) = none) :
    s.riseAt p t = (s.occupy p t).unknownArrival p x t := by
  have ho' : (s.occupy p t).oldestApproaching (arrivalDirOf x) = none := ho
  have hrun : (s.occupy p t).isRunning = true := beq_iff_eq.mpr hs
  unfold State.riseAt
  simp only [hx, hrun, ho', if_true]

/-- Before RUNNING a fall changes the occupancy alone. -/
theorem fallAt_before {s : State} (p : Nat) (t : Option Nat) (hs : s.cfl.start ≠ .running) :
    s.fallAt p t = s.vacate p := by
  simp [State.fallAt, State.isRunning, State.vacate, hs]

/-- Before RUNNING a first berth level sets the occupancy alone. -/
theorem firstBerthLevel_before {s : State} (p : Nat) (active : Bool) (t : Option Nat) (hs : s.cfl.start ≠ .running) :
    s.firstBerthLevel p active t =
      s.updPlat p (fun d => { d with occupied := active, since := if active then t else none }) := by
  cases active <;> simp [State.firstBerthLevel, State.isRunning, hs, State.occupy, State.vacate]

/-- In RUNNING an ACTIVE first berth level is taken as a rise. -/
theorem firstBerthLevel_running {s : State} (p : Nat) (active : Bool) (t : Option Nat) (hs : s.cfl.start = .running) :
    s.firstBerthLevel p active t = if active then s.riseAt p t else s := by
  simp [State.firstBerthLevel, State.isRunning, hs]

/-- Before RUNNING a brake-point rise changes nothing. -/
theorem brakeAt_before {s : State} (p : Nat) (t : Option Nat) (hs : s.cfl.start ≠ .running) : s.brakeAt p t = s := by
  unfold State.brakeAt
  split
  · rfl
  · simp [State.isRunning, hs]

/-- Settles O19: before RUNNING an accepted level changes the occupancy alone; in it a first level is a rise or nothing.
-/
theorem edgesBeforeRunning : Obligations.EdgesBeforeRunning := by
  constructor
  · intro i cycle m c s hr hm hs
    have hs' : (s.levelAccepted i m c).cfl.start ≠ .running := hs
    refine ⟨fun p hc hu => ?_, fun p hc hu => execFirstLevel_brake hr hm hc hu, fun p x hc hu ha hx => ?_,
      fun p hc hu ha => ?_, fun p hc hu ha => ?_⟩
    · rw [execFirstLevel_berth hr hm hc hu, firstBerthLevel_before p _ _ hs', finish_updPlat i m p c _ hr]
    · rw [execBerthRise_taken hr hm hc hu ha, riseAt_before _ hs' hx, State.occupy, finish_updPlat i m p c _ hr]
    · rw [execBerthFall_taken hr hm hc hu ha, fallAt_before _ _ hs', State.vacate, finish_updPlat i m p c _ hr]
    · rw [execBrakePointRise_taken hr hm hc hu ha, brakeAt_before _ _ hs', finish_levelAccepted i m c hr]
  · intro i cycle m c s hr hm hs hc
    have hs' : (s.levelAccepted i m c).cfl.start = .running := hs
    refine ⟨fun p hu => ?_, fun p hu => execFirstLevel_brake hr hm hc hu⟩
    rw [execFirstLevel_berth hr hm hc hu, firstBerthLevel_running p _ _ hs']
    split
    · rfl
    · rw [finish_levelAccepted i m c hr]

/-! ## Berth rises in RUNNING -/

/-- The planned entries of a launch list that wait for platform p: the PENDING ones, in list order. -/
def waitingFor (p : Nat) (l : List LaunchEntry) : List PlanEntry :=
  (l.filter (fun e => e.state == .pending && e.plan.platform == p)).map (·.plan)

theorem waitingFor_cons_waiting {p : Nat} {e : LaunchEntry} (h : (e.state == .pending && e.plan.platform == p) = true)
    (es : List LaunchEntry) : waitingFor p (e :: es) = e.plan :: waitingFor p es := by
  simp only [waitingFor, List.filter_cons, if_pos h, List.map_cons]

theorem waitingFor_cons_other {p : Nat} {e : LaunchEntry} (h : ¬ (e.state == .pending && e.plan.platform == p) = true)
    (es : List LaunchEntry) : waitingFor p (e :: es) = waitingFor p es := by
  simp only [waitingFor, List.filter_cons, if_neg h]

/-- The entry used is the first waiting one whose run no other record carries. -/
theorem useLaunch_used (taken : Nat → Bool) (p : Nat) (l : List LaunchEntry) :
    (useLaunch taken p l).2.1 = (waitingFor p l).find? (fun e => !taken e.run) := by
  induction l with
  | nil => rfl
  | cons e es ih =>
    unfold useLaunch
    by_cases hw : (e.state == .pending && e.plan.platform == p) = true
    · rw [if_pos hw, waitingFor_cons_waiting hw]
      by_cases ht : taken e.plan.run = true <;> simp [ht, ih]
    · rw [if_neg hw, waitingFor_cons_other hw]
      exact ih

/-- The runs in conflict are those of the waiting entries before the one used. -/
theorem useLaunch_passed (taken : Nat → Bool) (p : Nat) (l : List LaunchEntry) :
    (useLaunch taken p l).2.2 = ((waitingFor p l).takeWhile (fun e => taken e.run)).map (·.run) := by
  induction l with
  | nil => rfl
  | cons e es ih =>
    unfold useLaunch
    by_cases hw : (e.state == .pending && e.plan.platform == p) = true
    · rw [if_pos hw, waitingFor_cons_waiting hw]
      by_cases ht : taken e.plan.run = true <;> simp [ht, ih]
    · rw [if_neg hw, waitingFor_cons_other hw]
      exact ih

theorem useLaunch_plans (taken : Nat → Bool) (p : Nat) (l : List LaunchEntry) :
    (useLaunch taken p l).1.map (·.plan) = l.map (·.plan) := by
  induction l with
  | nil => rfl
  | cons e es ih =>
    unfold useLaunch
    split
    · split <;> simp [ih]
    · simp [ih]

/-- An entry that changes was PENDING for the platform; it is CANCELLED when its run is carried, LAUNCHED otherwise. -/
theorem useLaunch_changed (taken : Nat → Bool) (p : Nat) (l : List LaunchEntry) (j : Nat) (e x : LaunchEntry)
    (he : l[j]? = some e) (hx : (useLaunch taken p l).1[j]? = some x) (hne : x ≠ e) :
    e.state = .pending ∧ e.plan.platform = p ∧ x.state = (if taken e.plan.run then .cancelled else .launched) := by
  induction l generalizing j with
  | nil => cases he
  | cons y ys ih =>
    unfold useLaunch at hx
    split at hx
    · next hw =>
      obtain ⟨hpending, hplatform⟩ : y.state = .pending ∧ y.plan.platform = p := by simpa using hw
      split at hx
      · next ht =>
        cases j with
        | zero => cases he; cases hx; exact ⟨hpending, hplatform, by simp [ht]⟩
        | succ j => exact ih j he hx
      · next ht =>
        cases j with
        | zero => cases he; cases hx; exact ⟨hpending, hplatform, by simp [ht]⟩
        | succ j => exact absurd (Option.some.inj (hx.symm.trans he)) hne
    · cases j with
      | zero => exact absurd (Option.some.inj (hx.symm.trans he)) hne
      | succ j => exact ih j he hx

/-- The state of a turnback conversion before its record changes: the launch list used, the conflicts told. -/
def State.launchUsed (s : State) (p tag : Nat) : State :=
  let taken := fun run => s.runCarriedByOther run tag
  (((waitingFor p s.ttu.launch).takeWhile (fun e => taken e.run)).map (·.run)).foldl
    (fun (w : State) run => w.raise .runConflict (Loc.ofRunAt run p))
    { s with ttu := { s.ttu with launch := (useLaunch taken p s.ttu.launch).1 } }

theorem launchUsed_start (s : State) (p tag : Nat) : (s.launchUsed p tag).cfl.start = s.cfl.start :=
  congrArg Outside.start (foldl_outside _ _ { s with ttu := _ } fun t _ => raise_outside t ..)

/-- In RUNNING a conversion with an entry to use makes its run of the record, and the computation begins (R16). -/
theorem convert_used {s : State} {p : Nat} {x : PlatformCfg} {e : PlanEntry} (tag : Nat) (hs : s.cfl.start = .running)
    (hx : s.pcfg p = some x)
    (he : (waitingFor p s.ttu.launch).find? (fun e => !s.runCarriedByOther e.run tag) = some e) :
    s.convert p tag = ((s.launchUsed p tag).updRec tag (fun y => y.convert x.dir e)).post (.compute p tag) := by
  have hrun : ((s.launchUsed p tag).updRec tag (fun y => y.convert x.dir e)).isRunning = true := by
    simp [State.isRunning, launchUsed_start, hs]
  unfold State.convert
  simp only [hx, useLaunch_used, useLaunch_passed, he]
  exact if_pos hrun

/-- A conversion with no entry to use makes the record SPARE (R16). -/
theorem convert_spare {s : State} {p : Nat} {x : PlatformCfg} (tag : Nat) (hx : s.pcfg p = some x)
    (he : (waitingFor p s.ttu.launch).find? (fun e => !s.runCarriedByOther e.run tag) = none) :
    s.convert p tag = (s.launchUsed p tag).updRec tag TrainRec.toSpare := by
  unfold State.convert
  simp only [hx, useLaunch_used, useLaunch_passed, he]
  rfl

/-- A creation with run 000 is refused in a full table only (R1). -/
theorem createRec_full {s : State} {r : TrainRec} (hr : r.run = 0) (h : tableRoom ≤ s.ttu.table.length) :
    s.createRec r = (s, .full) := by simp [State.createRec, hr, h]

/-- Where the table has room a record of run 000 joins it with a fresh tag (R1, R2). -/
theorem createRec_created {s : State} {r : TrainRec} (hr : r.run = 0) (h : s.ttu.table.length < tableRoom) :
    ∃ v t, s.createRec r = (v, .created t) ∧ v.ttu.table = s.ttu.table ++ [{ r with tag := t }] := by
  have hroom : ¬ tableRoom ≤ s.ttu.table.length := by omega
  unfold State.createRec
  simp only [hr, bne_self_eq_false, Bool.false_and, Bool.false_eq_true, if_false, if_neg hroom]
  exact ⟨_, _, rfl, rfl⟩

/-- The record that an unknown arrival asks for (R12). -/
def unknownRec (p : Nat) (x : PlatformCfg) (aa : Option Nat) : TrainRec :=
  { TrainRec.blank 0 (arrivalDirOf x) .spare with origin := aa.getD 0, platform := some p, aa := aa }

/-- With a full train table an unknown arrival is an incident and no more (R12). -/
theorem unknownArrival_full {s : State} (p : Nat) (x : PlatformCfg) (aa : Option Nat)
    (h : tableRoom ≤ s.ttu.table.length) :
    s.unknownArrival p x aa = s.raise .unknownArrival (Loc.ofPlatform p) := by
  have hc : (s.raise .unknownArrival (Loc.ofPlatform p)).createRec (unknownRec p x aa) = (_, .full) :=
    createRec_full rfl h
  unfold unknownRec at hc
  simp only [State.unknownArrival, hc]

/-- The record made for an unknown arrival occupies the platform, and is converted at a turnback platform (R12). -/
theorem unknownArrival_created {s v : State} {p t : Nat} {x : PlatformCfg} {aa : Option Nat}
    (h : (s.raise .unknownArrival (Loc.ofPlatform p)).createRec (unknownRec p x aa) = (v, .created t)) :
    s.unknownArrival p x aa =
      if x.turnback then (v.setOccupant p (some t)).convert p t else v.setOccupant p (some t) := by
  unfold unknownRec at h
  simp only [State.unknownArrival, h]

/-- Settles O20, from what a rise, a conversion and the launch list's use do. -/
theorem berthRiseTakesTheOldest : Obligations.BerthRiseTakesTheOldest := by
  refine ⟨?_, ?_, ?_, ?_, fun taken p l => ⟨useLaunch_plans taken p l, useLaunch_changed taken p l⟩⟩
  · intro i cycle m p c x r s hr hm hs hc hu ha hx hturn ho hw
    have hd : arrivalDirOf x = x.dir := by simp [arrivalDirOf, hturn]
    rw [execBerthRise_taken hr hm hc hu ha, riseAt_known (s := s.levelAccepted i m c) _ hs hx (hd ▸ ho)]
    simp only [State.takeBerth, hw, hturn]
    rfl
  · intro i cycle m p c x s hr hm hs hc hu ha hx ho u made
    have hrise : exec (.berthRise i cycle) s =
        .next (finish (((s.levelAccepted i m c).occupy p c.stamp).unknownArrival p x c.stamp)) := by
      rw [execBerthRise_taken hr hm hc hu ha, riseAt_unknown (s := s.levelAccepted i m c) _ hs hx ho]
    rw [hrise]
    refine ⟨fun hfull => ?_, fun hroom => ?_⟩
    · rw [unknownArrival_full (s := (s.levelAccepted i m c).occupy p c.stamp) p x c.stamp hfull]
      rfl
    · obtain ⟨v, t, hv, htable⟩ := createRec_created (s := u) (r := made) rfl hroom
      refine ⟨v, t, hv, htable, ?_⟩
      rw [unknownArrival_created (s := (s.levelAccepted i m c).occupy p c.stamp) hv]
      rfl
  · intro i cycle m p c x r s hr hm hs hc hu ha hx ho hw
    rw [execBerthRise_taken hr hm hc hu ha, riseAt_known (s := s.levelAccepted i m c) _ hs hx ho]
    simp only [State.takeBerth, hw]
    rfl
  · intro i cycle m p c x r s hr hm hs hc hu ha hx hturn ho hw u taken waiting passed v
    have hd : arrivalDirOf x = x.dir.opp := by simp [arrivalDirOf, hturn]
    have hrise : exec (.berthRise i cycle) s = .next (finish (u.convert p r.tag)) := by
      rw [execBerthRise_taken hr hm hc hu ha, riseAt_known (s := s.levelAccepted i m c) _ hs hx (hd ▸ ho)]
      simp only [State.takeBerth, hw, hturn]
      rfl
    rw [hrise]
    constructor
    · intro e he
      rw [convert_used (s := u) r.tag hs hx he]
      rfl
    · intro he
      rw [convert_spare (s := u) r.tag hx he]
      rfl

end Sys2Proof.Machine
end

section
/-! PROOFS. Brake-point edges and berth falls in RUNNING. -/

namespace Sys2Proof.Machine

open Sys2Proof

/-! ## Braking starts -/

/-- The braking start that a brake-point rise gives: an absent stamp leaves the latest one as it stands (R30). -/
def State.brakingStart (s : State) (p : Nat) : Option Nat → State
  | some t => s.updCtx p (fun y => { y with latestBrake := some t })
  | none => s

theorem brakingStart_oldest (s : State) (p : Nat) (t : Option Nat) (d : Dir) :
    (s.brakingStart p t).oldestApproaching d = s.oldestApproaching d := by cases t <;> rfl

theorem brakingStart_quiet {s : State} (p : Nat) (t : Option Nat) (h : s.Quiet) : (s.brakingStart p t).Quiet := by
  cases t <;> exact h

/-- A brake-point rise in RUNNING, by the oldest APPROACHING record of the arrival direction (R13, R30). -/
theorem brakeAt_running {s : State} {p : Nat} {x : PlatformCfg} (t : Option Nat) (hs : s.cfl.start = .running)
    (hx : s.pcfg p = some x) :
    s.brakeAt p t = match s.oldestApproaching (arrivalDirOf x) with
      | some r =>
        if r.announcedApproach then s.brakingStart p t
        else (s.brakingStart p t).post
          (.announce (trainRequest s.cfg.announce.srcApproach 1 p r (.train r.run) (some (r.tag, .approach))))
      | none => s.brakingStart p t := by
  have hrun : s.isRunning = true := beq_iff_eq.mpr hs
  rw [← brakingStart_oldest s p t]
  unfold State.brakeAt
  simp only [hx, hrun, if_true]
  cases t <;> rfl

theorem execBrakePointFall_taken {s : State} {i cycle m p : Nat} {c : Candidate} (hr : s.Ready)
    (hm : s.momentAt cycle = some m) (hc : s.acceptable i m false = some c) (hu : (s.trackCfg i).use = .brake p)
    (ha : c.active = false) : exec (.brakePointFall i cycle) s = .next (s.levelAccepted i m c) := by
  refine (onEdge_taken (use := brakeOf) (fun _ _ s => s) hr hm hc (by rw [hu]; rfl) ha).trans ?_
  rw [finish_levelAccepted i m c hr]

/-- Settles O21, by the oldest APPROACHING record: none, one announced already, or one to announce. -/
theorem brakePointEdgesAreTaken : Obligations.BrakePointEdgesAreTaken := by
  refine ⟨?_, fun i cycle m p c s hr hm hc hu ha => execBrakePointFall_taken hr hm hc hu ha⟩
  intro i cycle m p c x s hr hm hs hc hu ha hx u
  have hu' : u = (s.levelAccepted i m c).brakingStart p c.stamp := rfl
  have hquiet : finish u = u := finish_quiet u (hu' ▸ brakingStart_quiet p c.stamp hr.2)
  have hbrake := brakeAt_running (s := s.levelAccepted i m c) c.stamp hs hx
  rw [execBrakePointRise_taken hr hm hc hu ha, hbrake, ← hu']
  refine ⟨fun ho => ?_, fun r ho hflag => ?_, fun r ho hflag => ?_⟩
  all_goals
    have ho' : (s.levelAccepted i m c).oldestApproaching (arrivalDirOf x) = _ := ho
    simp only [ho']
  · rw [hquiet]
  · rw [if_pos hflag, hquiet]
  · rw [hflag]
    rfl

/-! ## Berth falls -/

/-- A fall in RUNNING at a configured platform, by its occupying record (R14, R42, R43). -/
theorem fallAt_running {s : State} {p : Nat} {x : PlatformCfg} {r : TrainRec} (t : Option Nat)
    (hs : s.cfl.start = .running) (hx : s.pcfg p = some x)
    (ho : ((s.vacate p).plat p).occupant.bind (s.vacate p).recOf = some r) :
    s.fallAt p t =
      if r.state = .spare then (s.vacate p).removeRec r.tag
      else if r.state = .authorized then
        (((s.vacate p).departRegular p x r t).testLate p r.tag).post (.enteredHanding r.tag)
      else if r.state.regulated then
        (((s.vacate p).departWithout p x r t).testLate p r.tag).post (.enteredHanding r.tag)
      else s.vacate p := by
  have hrun : (s.vacate p).isRunning = true := beq_iff_eq.mpr hs
  have hx' : (s.vacate p).pcfg p = some x := hx
  unfold State.fallAt
  simp only [hx', hrun, ho, if_true, beq_iff_eq]

/-- A fall at a platform without an occupying record leaves it EMPTY and no more. -/
theorem fallAt_empty {s : State} (p : Nat) (t : Option Nat)
    (ho : ((s.vacate p).plat p).occupant.bind (s.vacate p).recOf = none) : s.fallAt p t = s.vacate p := by
  unfold State.fallAt
  simp only [ho]
  split
  · cases (s.vacate p).pcfg p <;> rfl
  · rfl

/-- A fall leaves the occupying record of the platform in its place. -/
theorem vacate_occupant (s : State) (p : Nat) : ((s.vacate p).plat p).occupant = (s.plat p).occupant := by
  simp only [State.vacate, State.plat, updPlat_ttu, List.getD_eq_getElem?_getD, List.getElem?_modify_eq]
  cases s.ttu.plats[p]? <;> rfl

theorem removeRec_of_recOf {s : State} {tag : Nat} {r : TrainRec} (h : s.recOf tag = some r) :
    s.removeRec tag = ({ s with ttu := { s.ttu with
      table := s.ttu.table.filter (fun y => y.tag != tag)
      plats := s.ttu.plats.map (fun d => if d.occupant = some tag then { d with occupant := none } else d) } } :
        State).post (.tagGone tag r.run) := by
  unfold State.removeRec
  simp only [h, beq_iff_eq]

/-- Settles O22, by the state of the occupying record. -/
theorem berthFallDeparts : Obligations.BerthFallDeparts := by
  refine ⟨?_, ?_, ?_⟩
  · intro i cycle m p c x r s hr hm hs hc hu ha hx u ho hrec hstate pd left
    have hocc : (u.plat p).occupant.bind u.recOf = some r := by rw [ho]; exact hrec
    rw [execBerthFall_taken hr hm hc hu ha, fallAt_running (s := s.levelAccepted i m c) c.stamp hs hx hocc]
    simp only [hstate, reduceCtorEq, if_false, if_true]
    simp only [State.departRegular, State.captureDeparture, hstate]
    rfl
  · intro i cycle m p c x r s hr hm hs hc hu ha hx u ho hrec hstate pd left asked given off
    have hocc : (u.plat p).occupant.bind u.recOf = some r := by rw [ho]; exact hrec
    obtain ⟨hspare, hauth, hreg⟩ : r.state ≠ .spare ∧ r.state ≠ .authorized ∧ r.state.regulated = true := by
      rcases hstate with h | h | h | h <;> rw [h] <;> decide
    rw [execBerthFall_taken hr hm hc hu ha, fallAt_running (s := s.levelAccepted i m c) c.stamp hs hx hocc,
      if_neg hspare, if_neg hauth, if_pos hreg]
    have hoff : u.departWithout p x r c.stamp = off.idleCtx p := by
      simp only [State.departWithout, Bool.and_eq_true, beq_iff_eq]
      rfl
    exact hoff ▸ rfl
  · intro i cycle m p c x s hr hm hs hc hu ha hx u
    have hocc : (u.plat p).occupant = (s.plat p).occupant := vacate_occupant (s.levelAccepted i m c) p
    rw [execBerthFall_taken hr hm hc hu ha]
    refine ⟨fun ho => ?_, fun r ho hrec hstate => ?_⟩
    · have ho' : (u.plat p).occupant.bind u.recOf = none := by rw [hocc]; exact ho
      rw [fallAt_empty (s := s.levelAccepted i m c) p c.stamp ho']
      exact congrArg _ (finish_updPlat i m p c _ hr)
    · have ho' : (u.plat p).occupant.bind u.recOf = some r := by rw [hocc, ho]; exact hrec
      rw [fallAt_running (s := s.levelAccepted i m c) c.stamp hs hx ho', if_pos hstate,
        removeRec_of_recOf (s := (s.levelAccepted i m c).vacate p) hrec]
      rfl

end Sys2Proof.Machine
end

section
/-! PROOFS. The directives on train records, modes, announcements and the day. -/

namespace Sys2Proof.Machine

open Sys2Proof

/-! ## The record a directive names (R19) -/

/-- A run that is given names the record that carries it. -/
theorem named_run {s : State} {run : Nat} {p : Option Nat} (hrun : run ≠ 0) (hp : s.platformOk p = true) :
    s.named run p = match s.recOfRun run with
      | some r => .record r.tag
      | none => .unknown := by
  cases hr : s.recOfRun run with
  | none => simp [State.named, hp, hrun, hr]
  | some r => simp [State.named, hp, hrun, hr]

/-- Run 000 names the unidentified train at the platform given. -/
theorem named_atPlatform {s : State} {q : Nat} (hq : s.platformOk (some q) = true) :
    s.named 0 (some q) = match s.occupantOf q with
      | some r => if r.run = 0 then .record r.tag else .unknown
      | none => .unknown := by
  unfold State.named
  simp only [hq, Bool.not_true, Bool.false_eq_true, if_false, if_true]
  rfl

theorem named_nothing (s : State) : s.named 0 none = .refused := rfl

theorem platformOk_iff (s : State) (q : Nat) : s.platformOk (some q) = true ↔ q < s.platformCount := decide_eq_true_iff

/-- A platform that is not configured is refused. -/
theorem named_notConfigured {s : State} {q : Nat} (run : Nat) (hq : s.platformCount ≤ q) :
    s.named run (some q) = .refused := by
  have hp : s.platformOk (some q) = false := decide_eq_false (by omega)
  simp [State.named, hp]

/-! ## INSERT_RUN (R21) -/

/-- INSERT_RUN of run 000, or of a run that is carried, is refused. -/
theorem insertDirective_refused {s : State} {a : InsertArgs} (h : a.run = 0 ∨ s.runCarried a.run = true) :
    s.insertDirective a = (s, .refused) := by
  unfold State.insertDirective
  refine if_pos ?_
  rcases h with h | h <;> simp [h]

/-- INSERT_RUN at a platform that is not configured, or is barred, is refused. -/
theorem insertDirective_barred {s : State} {a : InsertArgs} {q : Nat} (hp : a.platform = some q)
    (h : s.platformCount ≤ q ∨ s.insertBarred a q = true) : s.insertDirective a = (s, .refused) := by
  unfold State.insertDirective
  split
  · rfl
  · next hok =>
    rcases h with h | h
    · have hq : s.platformOk (some q) = false := decide_eq_false (by omega)
      simp [hp, hq] at hok
    · simp [hp, h]

/-- INSERT_RUN without a platform makes an APPROACHING record. -/
theorem insertDirective_approaching {s : State} {a : InsertArgs} (hrun : a.run ≠ 0) (hfree : s.runCarried a.run = false)
    (hp : a.platform = none) : s.insertDirective a = s.insertApproaching a := by
  have hok : s.platformOk none = true := rfl
  simp [State.insertDirective, hrun, hfree, hp, hok]

/-- INSERT_RUN at a platform that admits it and is EMPTY makes an APPROACHING record. -/
theorem insertDirective_empty {s : State} {a : InsertArgs} {q : Nat} (hrun : a.run ≠ 0)
    (hfree : s.runCarried a.run = false) (hp : a.platform = some q) (hq : q < s.platformCount)
    (hbar : s.insertBarred a q = false) (hocc : (s.plat q).occupied = false) :
    s.insertDirective a = s.insertApproaching a := by
  have hok := (platformOk_iff s q).mpr hq
  simp [State.insertDirective, hrun, hfree, hp, hok, hbar, hocc]

/-- INSERT_RUN at a platform that admits it and is OCCUPIED takes the run to the berth. -/
theorem insertDirective_occupied {s : State} {a : InsertArgs} {q : Nat} (hrun : a.run ≠ 0)
    (hfree : s.runCarried a.run = false) (hp : a.platform = some q) (hq : q < s.platformCount)
    (hbar : s.insertBarred a q = false) (hocc : (s.plat q).occupied = true) :
    s.insertDirective a = s.insertAtBerth a q := by
  have hok := (platformOk_iff s q).mpr hq
  simp [State.insertDirective, hrun, hfree, hp, hok, hbar, hocc]

/-- Settles O59: HOLD_TRAIN, RELEASE_TRAIN and WITHDRAW_RUN by what they name, INSERT_RUN by its platform. -/
theorem directivesActOnRecords : Obligations.DirectivesActOnRecords := by
  constructor
  · intro sender serial i run p ts s u flagged
    have hn : u.named run p = s.named run p := rfl
    refine ⟨fun h => ?_, fun h => ?_, fun h => ?_, fun hrun hp => ?_, fun hrun hp => ?_, fun q hrun hp hq => ?_,
      fun q hrun hp hq => ?_, fun q hp hq => ?_⟩
    · have hexec : exec .holdTrain s = .next (finish ((u.holdDirective run p true).1.answered i sender serial
          (.holdTrain run p) (u.holdDirective run p true).2)) := execHoldTrain_ordered s sender serial i ts run p h
      rw [hexec]
      unfold State.holdDirective
      rw [hn]
      cases s.named run p <;> rfl
    · have hexec : exec .releaseTrain s = .next (finish ((u.holdDirective run p false).1.answered i sender serial
          (.releaseTrain run p) (u.holdDirective run p false).2)) :=
        execReleaseTrain_ordered s sender serial i ts run p h
      rw [hexec]
      unfold State.holdDirective
      rw [hn]
      cases s.named run p <;> rfl
    · obtain ⟨-, hrole, -⟩ := id h
      have hstation : u.isStation = true := beq_iff_eq.mpr hrole
      have hexec : exec .withdrawRun s = .next (finish ((u.withdrawDirective run p).1.answered i sender serial
          (.withdrawRun run p) (u.withdrawDirective run p).2)) := execWithdrawRun_ordered s sender serial i ts run p h
      rw [hexec]
      unfold State.withdrawDirective
      rw [hn, hstation, Bool.true_and]
      cases s.named run p with
      | refused => rfl
      | record tag => rfl
      | unknown =>
        by_cases hany : s.ttu.launch.any (fun e => e.state == .pending && e.plan.run == run) = true
        · have hany' : u.ttu.launch.any (fun e => e.state == .pending && e.plan.run == run) = true := hany
          simp only [if_pos hany, if_pos hany']
          rfl
        · have hany' : ¬ u.ttu.launch.any (fun e => e.state == .pending && e.plan.run == run) = true := hany
          simp only [if_neg hany, if_neg hany']
    · subst hp
      exact named_run hrun rfl
    · subst hrun hp
      exact named_nothing s
    · subst hp
      exact named_run hrun ((platformOk_iff s q).mpr hq)
    · subst hrun hp
      exact named_atPlatform ((platformOk_iff s q).mpr hq)
    · subst hp
      exact named_notConfigured run hq
  · intro sender serial i a ts s h u give approach good
    have hexec : exec .insertRun s = .next (finish (give (u.insertDirective a).1 (u.insertDirective a).2)) :=
      execInsertRun_ordered s sender serial i ts a h
    have happroach : give (u.insertApproaching a).1 (u.insertApproaching a).2 = approach := by
      simp only [approach, State.insertApproaching]
      generalize u.createRec _ = x
      obtain ⟨v, tag | _ | _⟩ := x <;> rfl
    rw [hexec]
    refine ⟨fun hno => ?_, fun hgood hp => ?_, fun q hgood hp hno => ?_, fun q hgood hp hq hbar hempty => ?_,
      fun q r hgood hp hq hbar hocc hr => ?_, fun q hgood hp hq hbar hocc hr => ?_⟩
    · rw [insertDirective_refused (s := u) hno]
    · rw [insertDirective_approaching (s := u) hgood.1 hgood.2 hp, happroach]
    · rw [insertDirective_barred (s := u) hp hno]
    · rw [insertDirective_empty (s := u) hgood.1 hgood.2 hp hq hbar hempty, happroach]
    · have hr' : u.occupantOf q = some r := hr
      rw [insertDirective_occupied (s := u) hgood.1 hgood.2 hp hq hbar hocc]
      simp only [State.insertAtBerth, hr']
    · have hr' : u.occupantOf q = none := hr
      rw [insertDirective_occupied (s := u) hgood.1 hgood.2 hp hq hbar hocc]
      have hplat : u.plat q = s.plat q := rfl
      simp only [State.insertAtBerth, hr', hplat]
      generalize u.createRec _ = x
      obtain ⟨v, tag | _ | _⟩ := x <;> rfl

/-! ## Modes and announcements (R27, R136, R157) -/

/-- The regulation mode that SET_MODE's operand names (R27). -/
def modeGiven (m : Nat) : RegMode := if m = 0 then .timetable else if m = 1 then .headway else .blended

/-- SET_MODE of a mode above 2 is refused. -/
theorem setModeDirective_refused {s : State} {m : Nat} (p : Option Nat) (hm : 2 < m) :
    s.setModeDirective m p = (s, .refused) := by
  obtain ⟨k, rfl⟩ : ∃ k, m = k + 3 := ⟨m - 3, by omega⟩
  rfl

/-- SET_MODE of a mode up to 2 without a platform sets it at every one. -/
theorem setModeDirective_all (s : State) {m : Nat} (hm : m ≤ 2) :
    s.setModeDirective m none =
      ({ s with rge := { s.rge with modes := s.rge.modes.map (fun _ => modeGiven m) } }, .done) := by
  obtain rfl | rfl | rfl : m = 0 ∨ m = 1 ∨ m = 2 := by omega
  all_goals rfl

/-- SET_MODE of a mode up to 2 at a platform: set there when it is configured, refused otherwise. -/
theorem setModeDirective_at (s : State) {m : Nat} (q : Nat) (hm : m ≤ 2) :
    s.setModeDirective m (some q) =
      if q < s.platformCount then ({ s with rge := { s.rge with modes := s.rge.modes.set q (modeGiven m) } }, .done)
      else (s, .refused) := by
  obtain rfl | rfl | rfl : m = 0 ∨ m = 1 ∨ m = 2 := by omega
  all_goals rfl

/-- The ceiling of a console's level on a priority (R189 step 5). -/
theorem levelCeiling_eq (n : Nat) : levelCeiling n = if n = 1 then 4 else if n = 2 then 5 else 7 := by
  unfold levelCeiling
  split
  · rfl
  · rfl
  · next h1 h2 => rw [if_neg h1, if_neg h2]

/-- An announcement directive may be put to the Announcement Unit: its template is configured, its zones are, and its
repeat count and interval are within their ranges (R136). -/
def State.mayAnnounce (s : State) (a : AnnounceArgs) : Prop :=
  templateOf s.cfg.announce a.template ≠ [] ∧ s.zonesOk a.zones = true ∧ a.repeatCount ≤ 7 ∧ a.interval ≤ 6000

/-- ANNOUNCE that may not be put to the Announcement Unit is refused. -/
theorem announceDirective_refused {s : State} {a : AnnounceArgs} (sender : Nat) (h : ¬ s.mayAnnounce a) :
    s.announceDirective sender a = (s, .refused) := by
  unfold State.announceDirective
  refine if_pos (Decidable.byContradiction fun hno => ?_)
  simp only [Bool.or_eq_true, Bool.not_eq_true', decide_eq_true_eq, List.isEmpty_iff, not_or, Nat.not_lt] at hno
  obtain ⟨⟨⟨⟨-, htemplate⟩, hzones⟩, hcount⟩, hinterval⟩ := hno
  exact h ⟨htemplate, by simpa using hzones, hcount, hinterval⟩

/-- The request that ANNOUNCE makes of the Announcement Unit. -/
def AnnounceArgs.request (a : AnnounceArgs) (sender : Nat) : AnnReq :=
  { template := a.template, priority := a.priority, zones := a.zones, slots := a.slots, repeatCount := a.repeatCount,
    interval := a.interval, source := .console sender, flag := none }

/-- ANNOUNCE put to the Announcement Unit is answered as the unit answers. -/
theorem announceDirective_asked {s : State} {a : AnnounceArgs} (sender : Nat) (hstation : s.isStation = true)
    (h : s.mayAnnounce a) :
    s.announceDirective sender a =
      ((s.takeRequest (a.request sender)).1,
        if (s.takeRequest (a.request sender)).2 = true then .done else .refused) := by
  obtain ⟨htemplate, hzones, hcount, hinterval⟩ := h
  unfold State.announceDirective
  rw [if_neg (by simp [hstation, htemplate, hzones]; omega)]
  split
  all_goals
    next e =>
    unfold AnnounceArgs.request
    simp [e]

/-- CANCEL_ANNOUNCE is answered DONE when something was cancelled, UNKNOWN otherwise (R136). -/
theorem cancelDirective_eq (s : State) (t : Nat) (l : List Nat) (z : BitVec 5) :
    s.cancelDirective t l z = ((s.cancelSame t l z).1, if (s.cancelSame t l z).2 = true then .done else .unknown) := by
  unfold State.cancelDirective
  split
  all_goals next e => simp [e]

/-- Settles O60, directive by directive. -/
theorem directivesSetModeDayAndAnnounce : Obligations.DirectivesSetModeDayAndAnnounce := by
  intro sender serial i ts s u
  refine ⟨fun m p h => ?_, fun t h => ?_, fun a c h hc => ?_, fun t l z h => ?_⟩
  · intro give mode
    have hexec : exec .setMode s = give (u.setModeDirective m p).1 (u.setModeDirective m p).2 :=
      execSetMode_ordered s sender serial i ts m p h
    rw [hexec]
    refine ⟨fun hm => ?_, fun hm hp => ?_, fun q hm hp hq => ?_, fun q hm hp hq => ?_⟩
    · rw [setModeDirective_refused p hm]
    · rw [hp, setModeDirective_all u hm]
      rfl
    · rw [hp, setModeDirective_at u q hm, if_neg (show ¬ q < u.platformCount from Nat.not_lt.mpr hq)]
    · rw [hp, setModeDirective_at u q hm, if_pos (show q < u.platformCount from hq)]
      rfl
  · have hexec : exec .dayStart s = .next (finish ((u.dayDirective t).1.answered i sender serial (.dayStart t)
        (u.dayDirective t).2)) := execDayStart_ordered s sender serial i ts t h
    rw [hexec]
    unfold State.dayDirective
    split <;> rfl
  · intro ceiling ok x
    obtain ⟨-, hrole, -⟩ := id h
    have hstation : u.isStation = true := beq_iff_eq.mpr hrole
    let clamped : AnnounceArgs := { a with priority := min a.priority (levelCeiling c.level) }
    have hexec : exec .announce s = .next (finish ((u.announceDirective sender clamped).1.answered i sender serial
        (.announce a) (u.announceDirective sender clamped).2)) := execAnnounce_ordered s sender serial i ts a c h hc
    have hx : u.takeRequest (clamped.request sender) = x := by
      simp only [x, ceiling, ← levelCeiling_eq]
      rfl
    rw [hexec]
    refine ⟨fun hno => ?_, fun hok => ?_⟩
    · rw [announceDirective_refused (s := u) (a := clamped) sender hno]
    · rw [announceDirective_asked (s := u) (a := clamped) sender hstation hok, hx]
  · intro x
    have hexec : exec .cancelAnnounce s = .next (finish ((u.cancelDirective t l z).1.answered i sender serial
        (.cancelAnnounce t l z) (u.cancelDirective t l z).2)) := execCancelAnnounce_ordered s sender serial i ts t l z h
    rw [hexec, cancelDirective_eq]

end Sys2Proof.Machine
end

section
/-! PROOFS. Handing trains over: the timers of handovers and stall watches, and the telegrams HANDOVER, TAKEOVER,
REFUSAL, RENEW_ASK and RENEW_REPLY. -/

namespace Sys2Proof.Machine

open Sys2Proof

/-! ## The timers (R51, R56, R63) -/

/-- The retry expiry of a context is a failed attempt, taken when its timer has been released (R51). -/
theorem retryExpires_of_hctx {s : State} {tag : Nat} {x : HandoverCtx} (hx : (s.dropRetry tag).hctx tag = some x) :
    s.retryExpires tag = (s.dropRetry tag).failAttempt x := by
  simp only [State.retryExpires, hx]

/-- A watch that expires with its record in the table raises TRAIN_STALLED while the record is APPROACHING (R63). -/
theorem watchExpires_of_recOf {s : State} {tag : Nat} {r : TrainRec} (hr : (s.dropWatch tag).recOf tag = some r) :
    s.watchExpires tag =
      if r.state = .approaching then
        (s.dropWatch tag).raiseOver .trainStalled (Loc.ofRun r.run) ((s.dropWatch tag).cfg.approachSpan r.dir)
      else s.dropWatch tag := by
  simp only [State.watchExpires, hr, beq_iff_eq]

theorem execHandoverRetryExpiry_taken {s : State} {tag : Nat} (hr : s.Ready) (hdue : s.retryDue tag .first = true) :
    exec (.handoverRetryExpiry tag) s = .next (finish (s.retryExpires tag)) :=
  onEvent_taken s _ (fun u => u.retryExpires tag) hr.1 hdue

theorem execOrphanRetryExpiry_taken {s : State} {tag : Nat} (hr : s.Ready)
    (hdue : s.retryDue tag .orphanRetry = true) :
    exec (.orphanRetryExpiry tag) s = .next (finish (s.endOrphanRetry tag)) :=
  onEvent_taken s _ (fun u => u.endOrphanRetry tag) hr.1 hdue

theorem execStallWatchExpiry_taken {s : State} {tag : Nat} {w : StallWatch} (hr : s.Ready) (hw : s.watchOf tag = some w)
    (hdue : s.expired w.timer = true) : exec (.stallWatchExpiry tag) s = .next (finish (s.watchExpires tag)) :=
  onEvent_taken s _ (fun u => u.watchExpires tag) hr.1 (by rw [hw]; exact hdue)

/-- Settles O26: what each expiry does of the context, or the record, that its tag names. -/
theorem handoverTimersAct : Obligations.HandoverTimersAct := by
  refine ⟨fun tag x s hr hdue hx => ?_, fun tag s hr hdue => ?_, fun tag w r s hr hw hdue hrec => ?_⟩
  · rw [execHandoverRetryExpiry_taken hr hdue, retryExpires_of_hctx hx]
    rfl
  · rw [execOrphanRetryExpiry_taken hr hdue]
    rfl
  · rw [execStallWatchExpiry_taken hr hw hdue, watchExpires_of_recOf hrec]

/-! ## Taking a train (R57 to R60) -/

/-- A creation whose run is carried is refused DUPLICATE (R1). -/
theorem createRec_duplicate {s : State} {r : TrainRec} (hrun : r.run ≠ 0) (hcarried : s.runCarried r.run = true) :
    s.createRec r = (s, .duplicate) := by
  simp [State.createRec, hrun, hcarried]

/-- A creation whose run is not carried is refused FULL in a full table (R1). -/
theorem createRec_noRoom {s : State} {r : TrainRec} (hfree : s.runCarried r.run = false)
    (hfull : tableRoom ≤ s.ttu.table.length) : s.createRec r = (s, .full) := by
  simp [State.createRec, hfree, hfull]

/-- A node takes a HANDOVER: a station in REBUILD or RUNNING, from its upstream node, with a run number (R57). -/
structure State.TakesFrom (s : State) (sender : Nat) (e : SentEntry) : Prop where
  speaking : s.speaking = true
  station : s.cfg.role = .station
  upstream : sender = s.cfg.upstream e.carried.dir
  run : e.carried.run ≠ 0

/-- What follows the TTU's answer to a creation request: a refusal, or the HANDOVER accepted (R59, R60). -/
def State.afterCreation (s : State) (sender : Nat) (e : SentEntry) : CreateResult → State
  | .duplicate =>
    (s.send sender (.refusal e.carried.run e.carried.dir e.seq true)).raise .runConflict (Loc.ofRun e.carried.run)
  | .full => s.send sender (.refusal e.carried.run e.carried.dir e.seq false)
  | .created tag => s.acceptHandover sender tag e

/-- A HANDOVER that is taken is a repeat to answer, or a creation request that the TTU answers (R57 to R60). -/
theorem takeHandover_of_takesFrom {s : State} {sender : Nat} {e : SentEntry} (h : s.TakesFrom sender e) :
    s.takeHandover sender e =
      if s.isRepeat e = true then s.answerRepeat sender e
      else
        (s.createRec (recOfCarried e.carried e.seq)).1.afterCreation sender e
          (s.createRec (recOfCarried e.carried e.seq)).2 := by
  obtain ⟨hspeak, hstation, hup, hrun⟩ := h
  have hpass :
      (!s.speaking || !s.isStation || sender != s.cfg.upstream e.carried.dir || e.carried.run == 0) = false := by
    simp [hspeak, State.isStation, hstation, ← hup, hrun]
  unfold State.takeHandover
  simp only [hpass, Bool.false_eq_true, if_false]
  generalize s.createRec _ = x
  obtain ⟨u, _ | _ | _⟩ := x <;> rfl

theorem takeHandover_repeat {s : State} {sender : Nat} {e : SentEntry} (h : s.TakesFrom sender e)
    (hrep : s.isRepeat e = true) : s.takeHandover sender e = s.answerRepeat sender e := by
  rw [takeHandover_of_takesFrom h, if_pos hrep]

theorem takeHandover_new {s u : State} {sender : Nat} {e : SentEntry} {a : CreateResult} (h : s.TakesFrom sender e)
    (hrep : s.isRepeat e = false) (hc : s.createRec (recOfCarried e.carried e.seq) = (u, a)) :
    s.takeHandover sender e = u.afterCreation sender e a := by
  rw [takeHandover_of_takesFrom h, if_neg (by simp [hrep]), hc]

/-- The sequence of an accepted HANDOVER is compared with the expected one, when there is one (R60). -/
theorem acceptHandover_eq (s : State) (sender tag : Nat) (e : SentEntry) :
    s.acceptHandover sender tag e =
      ((((if ((s.hoeDir e.carried.dir).expected).all (· == e.seq) then s
          else s.raise .sequenceGap (Loc.ofRun e.carried.run)).updHoeDir e.carried.dir (fun h =>
        { h with
          expected := some ((e.seq + 1) % 256)
          received := joinHistory { run := e.carried.run, seq := e.seq } h.received
          accepted := true })).startWatch tag).send sender (.takeover e.carried.run e.carried.dir e.seq)) := by
  cases hx : (s.hoeDir e.carried.dir).expected with
  | none =>
    simp only [State.acceptHandover, hx, Option.all_none, if_true]
    rfl
  | some x =>
    simp only [State.acceptHandover, hx, Option.all_some]
    rfl

/-- A HANDOVER at the head of a station node's receive queue is taken. -/
theorem execHandover_taken {s : State} {sender : Nat} {e : SentEntry} {ts : List Received} (hr : s.Ready)
    (hrole : s.cfg.role = .station)
    (hh : s.HeadIs { sender := sender, target := s.cfg.node, body := .handover e } ts) :
    exec .handover s = .next (finish ((s.withRx ts).takeHandover sender e)) :=
  onKind_station s _ _ _ ts hr.1 hrole hh rfl

/-- Settles O27: a repeat, a run already carried, a full table, in R57's order. -/
theorem handoverIsAnswered : Obligations.HandoverIsAnswered := by
  intro sender e ts s hr hrole hh hspeak hup hrun u answer
  have htakes : u.TakesFrom sender e := ⟨hspeak, hrole, hup, hrun⟩
  rw [execHandover_taken hr hrole hh]
  refine ⟨fun hrep => ?_, fun hrep hcarried => ?_, fun hrep hfree hfull => ?_⟩
  · rw [takeHandover_repeat htakes hrep]
    rfl
  · rw [takeHandover_new htakes hrep (createRec_duplicate hrun hcarried)]
    rfl
  · rw [takeHandover_new htakes hrep (createRec_noRoom hfree hfull)]
    rfl

/-- Settles O28: the record created, the HANDOVER is accepted. -/
theorem handoverCreatesTheRecord : Obligations.HandoverCreatesTheRecord := by
  intro sender tag e ts s u hr hrole hh hspeak hup hrun hrep hc v
  have htakes : (s.withRx ts).TakesFrom sender e := ⟨hspeak, hrole, hup, hrun⟩
  rw [execHandover_taken hr hrole hh, takeHandover_new htakes hrep hc]
  exact congrArg (fun x => Host.Outcome.next (finish x)) (acceptHandover_eq u sender tag e)

/-! ## The end of a handover (R52 to R54) -/

/-- A TAKEOVER at the head of a station node's receive queue is taken. -/
theorem execTakeover_taken {s : State} {sender run seq : Nat} {d : Dir} {ts : List Received} (hr : s.Ready)
    (hrole : s.cfg.role = .station)
    (hh : s.HeadIs { sender := sender, target := s.cfg.node, body := .takeover run d seq } ts) :
    exec .takeover s = .next (finish (match (s.withRx ts).matchHandover sender run d seq with
      | some x => (s.withRx ts).endHandover d x
      | none => s.withRx ts)) :=
  onKind_station s _ _ _ ts hr.1 hrole hh rfl

/-- A REFUSAL at the head of a station node's receive queue is taken. -/
theorem execRefusal_taken {s : State} {sender run seq : Nat} {d : Dir} {dup : Bool} {ts : List Received} (hr : s.Ready)
    (hrole : s.cfg.role = .station)
    (hh : s.HeadIs { sender := sender, target := s.cfg.node, body := .refusal run d seq dup } ts) :
    exec .refusal s = .next (finish (match (s.withRx ts).matchHandover sender run d seq with
      | some x => (s.withRx ts).takeRefusal x dup
      | none => s.withRx ts)) :=
  onKind_station s _ _ _ ts hr.1 hrole hh rfl

/-- A telegram that changes only the queue ends at rest. -/
theorem finish_withRx {s : State} (ts : List Received) (hr : s.Ready) : finish (s.withRx ts) = s.withRx ts :=
  finish_quiet (s.withRx ts) hr.2

/-- Settles O29, by the context that the telegram matches. -/
theorem takeoverAndRefusalAct : Obligations.TakeoverAndRefusalAct := by
  constructor
  · intro sender run seq d ts s hr hrole hh u
    rw [execTakeover_taken hr hrole hh]
    refine ⟨fun hnone => ?_, fun x hx => ?_⟩
    · have hnone' : (s.withRx ts).matchHandover sender run d seq = none := hnone
      rw [hnone']
      exact congrArg _ (finish_withRx ts hr)
    · have hx' : (s.withRx ts).matchHandover sender run d seq = some x := hx
      simp only [hx', State.endHandover, beq_iff_eq]
      rfl
  · intro sender run seq d dup x ts s hr hrole hh hx hphase u
    rw [execRefusal_taken hr hrole hh, hx]
    simp only [State.takeRefusal, hphase]
    rfl

/-! ## Renewal (R65, R66) -/

/-- A RENEW_ASK at the head of a station node's receive queue is answered in REBUILD and RUNNING. -/
theorem execRenewAsk_taken {s : State} {sender : Nat} {d : Dir} {ts : List Received} (hr : s.Ready)
    (hrole : s.cfg.role = .station) (hspeak : s.speaking = true)
    (hh : s.HeadIs { sender := sender, target := s.cfg.node, body := .renewAsk d } ts) :
    exec .renewAsk s = .next (finish ((s.withRx ts).answerRenewal sender d)) := by
  have htake : ((s.withRx ts).speaking && (s.withRx ts).isStation) = true := by
    have hspeak' : (s.withRx ts).speaking = true := hspeak
    have hstation : (s.withRx ts).isStation = true := beq_iff_eq.mpr hrole
    rw [hspeak', hstation]
    rfl
  refine (onKind_station s _ _ _ ts hr.1 hrole hh rfl).trans ?_
  simp only [htake, if_true]

/-- A RENEW_REPLY at the head of a station node's receive queue is taken in REBUILD. -/
theorem execRenewReply_taken {s : State} {sender : Nat} {d : Dir} {n : Option Nat} {x : RenewContent}
    {ts : List Received} (hr : s.Ready) (hrole : s.cfg.role = .station) (hs : s.cfl.start = .rebuild)
    (hh : s.HeadIs { sender := sender, target := s.cfg.node, body := .renewReply d n x } ts) :
    exec .renewReply s = .next (finish ((s.withRx ts).takeRenewal sender d n x)) := by
  have htake : ((s.withRx ts).cfl.start == .rebuild && (s.withRx ts).isStation) = true := by
    have hs' : (s.withRx ts).cfl.start = .rebuild := hs
    have hstation : (s.withRx ts).isStation = true := beq_iff_eq.mpr hrole
    rw [hs', hstation]
    rfl
  refine (onKind_station s _ _ _ ts hr.1 hrole hh rfl).trans ?_
  simp only [htake, if_true]

/-- The downstream node of a direction alone is sent the sent history (R65). -/
theorem answerRenewal_downstream {s : State} {sender : Nat} {d : Dir} (hdown : sender = s.cfg.downstream d)
    (hup : sender ≠ s.cfg.upstream d) :
    s.answerRenewal sender d =
      s.send sender (.renewReply d (s.hoeDir d).lastTaken (.sent (s.hoeDir d).sent)) := by
  simp only [State.answerRenewal, beq_iff_eq, if_pos hdown, if_neg hup]

/-- The upstream node of a direction alone is sent the received history (R65). -/
theorem answerRenewal_upstream {s : State} {sender : Nat} {d : Dir} (hup : sender = s.cfg.upstream d)
    (hdown : sender ≠ s.cfg.downstream d) :
    s.answerRenewal sender d =
      s.send sender (.renewReply d (s.hoeDir d).expected (.received (s.hoeDir d).received)) := by
  simp only [State.answerRenewal, beq_iff_eq, if_pos hup, if_neg hdown]

/-- The upstream node's reply settles a side still ASKED (R66). -/
theorem takeRenewal_sent {s : State} {sender : Nat} {d : Dir} (n : Option Nat) (es : List SentEntry)
    (hup : sender = s.cfg.upstream d) (hside : (s.hoeDir d).upSide = .asked) :
    s.takeRenewal sender d n (.sent es) = (s.updHoeDir d (fun h =>
      { h with
        upSide := .answered
        upReply := es
        expected := match n with
          | some k => if h.accepted then h.expected else some ((k + 1) % 256)
          | none => h.expected })).post .rebuildCheck := by
  have htake : (sender == s.cfg.upstream d && (s.hoeDir d).upSide == .asked) = true := by simp [hup, hside]
  exact if_pos htake

/-- The downstream node's reply settles a side still ASKED (R66). -/
theorem takeRenewal_received {s : State} {sender : Nat} {d : Dir} (n : Option Nat) (es : List RecvEntry)
    (hdown : sender = s.cfg.downstream d) (hside : (s.hoeDir d).downSide = .asked) :
    s.takeRenewal sender d n (.received es) = (s.updHoeDir d (fun h =>
      { h with downSide := .answered, downReply := es, sendCtr := some (n.getD 0) })).post .rebuildCheck := by
  have htake : (sender == s.cfg.downstream d && (s.hoeDir d).downSide == .asked) = true := by simp [hdown, hside]
  exact if_pos htake

/-- Settles O30: the ask by the asker's side, the reply by its content. -/
theorem renewalIsAskedAndAnswered : Obligations.RenewalIsAskedAndAnswered := by
  constructor
  · intro sender d ts s hr hrole hspeak hh hne u h
    have hexec : exec .renewAsk s = .next (finish (u.answerRenewal sender d)) := execRenewAsk_taken hr hrole hspeak hh
    rw [hexec]
    refine ⟨fun hdown => ?_, fun hup => ?_⟩
    · rw [answerRenewal_downstream (s := u) hdown (hdown ▸ hne.symm)]
      rfl
    · rw [answerRenewal_upstream (s := u) hup (hup ▸ hne)]
      rfl
  · intro sender d n ts s hr hrole hs u
    refine ⟨fun es hh hup hside => ?_, fun es hh hdown hside => ?_⟩
    · refine (execRenewReply_taken hr hrole hs hh).trans ?_
      exact congrArg (fun x => Host.Outcome.next (finish x)) (takeRenewal_sent (s := u) n es hup hside)
    · refine (execRenewReply_taken hr hrole hs hh).trans ?_
      exact congrArg (fun x => Host.Outcome.next (finish x)) (takeRenewal_received (s := u) n es hdown hside)

end Sys2Proof.Machine
end

section
/-! PROOFS. The display lines of a station: their entries, when a line goes out, and what the lines leave. -/

namespace Sys2Proof.Machine

open Sys2Proof

/-! ## Display lines (R144, R145) -/

/-- The indication for a time: DUE up to 300 ds ahead, else the minutes rounded up, 99 at most (R144). -/
theorem indicationFor_eq (now : Nat) (t : Int) :
    indicationFor now t = if t - (now : Int) ≤ 300 then .due
      else .minutes (min 99 (((t - (now : Int)).toNat + 599) / 600)) := by
  unfold indicationFor ceilDiv
  rfl

/-- A train at a platform has its entry: HELD when it is held, DUE otherwise, and none when SPARE (R144 step 1). -/
theorem berthedEntry_eq (s : State) (p : Nat) :
    s.berthedEntry p = match s.occupantOf p with
      | none => []
      | some r => if r.state = .spare then []
        else [{ run := r.run, dest := some r.dest, indication := if r.state = .held then .held else .due }] := by
  unfold State.berthedEntry State.occupantOf
  cases (s.plat p).occupant.bind s.recOf with
  | none => rfl
  | some r => cases hst : r.state <;> simp [hst]

/-- The entries after the train at the platform, by a VALID clock: a turnback platform's launch list, or those
approaching and the upstream prediction (R144 steps 2 to 4). -/
def State.comingEntries (s : State) (p : Nat) (c : PlatformCfg) (now : Nat) : List LineEntry :=
  if c.turnback then s.launchEntries p c now else s.approachEntries p c now ++ s.upstreamEntry c now

/-- A platform with turnback shows no approaching train and no upstream prediction, another one no launch list. -/
theorem timedEntries_eq (s : State) (p : Nat) (c : PlatformCfg) (now : Nat) :
    s.approachEntries p c now ++ s.upstreamEntry c now ++ s.launchEntries p c now = s.comingEntries p c now := by
  cases hc : c.turnback <;>
    simp [State.comingEntries, State.approachEntries, State.upstreamEntry, State.launchEntries, hc]

theorem lineOf_eq (s : State) (p : Nat) (c : PlatformCfg) :
    s.lineOf p c =
      (s.berthedEntry p ++ (match s.tiu.clock with | some now => s.comingEntries p c now | none => [])).take 2 := by
  simp only [← timedEntries_eq]
  rfl

/-- A held DISPLAY of the platform takes the new line, and any other command stays. -/
theorem replaceDisplay_eq (p : Nat) (l : List LineEntry) (x : FieldCmd) :
    (if x.isDisplay p = true then FieldCmd.display p l else x) = match x with
      | .display q m => if q = p then .display p l else .display q m
      | y => y := by
  cases x <;> simp [FieldCmd.isDisplay]

/-- A line held for a full FIFO is replaced (R185). -/
theorem showLine_held {s : State} {p : Nat} {c : PlatformCfg} (hc : s.pcfg p = some c)
    (hheld : s.slc.held.any (FieldCmd.isDisplay p) = true) :
    s.showLine p = { s with slc := { s.slc with
      held := s.slc.held.map (fun x => if x.isDisplay p then .display p (s.lineOf p c) else x) } } := by
  simp [State.showLine, hc, hheld, holdCmd]

/-- A line equal to the last one sent is not sent (R145). -/
theorem showLine_same {s : State} {p : Nat} {c : PlatformCfg} (hc : s.pcfg p = some c)
    (hheld : s.slc.held.any (FieldCmd.isDisplay p) = false)
    (hlast : s.anu.lastLines.getD p none = some (s.lineOf p c)) : s.showLine p = s := by
  simp only [State.showLine, hc, hheld, hlast, beq_self_eq_true, Bool.false_eq_true, if_false, if_true]

/-- A line that differs from the last one sent goes out (R145). -/
theorem showLine_changed {s : State} {p : Nat} {c : PlatformCfg} (hc : s.pcfg p = some c)
    (hheld : s.slc.held.any (FieldCmd.isDisplay p) = false)
    (hlast : s.anu.lastLines.getD p none ≠ some (s.lineOf p c)) :
    s.showLine p = s.command (.display p (s.lineOf p c)) := by
  simp only [State.showLine, hc, hheld, beq_iff_eq, hlast, Bool.false_eq_true, if_false]

/-- In RUNNING a station node forms the line of each platform (R144). -/
theorem showLines_station {s : State} (hs : s.cfl.start = .running) (hrole : s.cfg.role = .station) :
    s.showLines = s.platforms.foldl State.showLine s := by
  simp [State.showLines, State.isRunning, State.isStation, hs, hrole]

/-- A node in CONSOLE role has no display lines. -/
theorem showLines_console {s : State} (hrole : s.cfg.role = .console) : s.showLines = s := by
  simp [State.showLines, State.isStation, hrole]

/-! ## What the display lines leave -/

/-- A part of the state that each step of a fold leaves as it is, the fold leaves as it is. -/
theorem foldl_keeps {α β : Type} (part : State → β) {g : State → α → State} (hg : ∀ t x, part (g t x) = part t)
    (l : List α) (s : State) : part (l.foldl g s) = part s := by
  induction l generalizing s with
  | nil => rfl
  | cons x xs ih => exact (ih (g s x)).trans (hg s x)

/-- The Line Bus Controller, the incidents and the requests to take. -/
def State.lineParts (s : State) : Lbc × Inu × List Msg := (s.lbc, s.inu, s.work)

theorem command_lineParts (s : State) (c : FieldCmd) : (s.command c).lineParts = s.lineParts := by
  unfold State.command State.placeCommand State.placeBy
  split
  · rfl
  · split
    · cases c <;> rfl
    · rfl

theorem showLine_lineParts (s : State) (p : Nat) : (s.showLine p).lineParts = s.lineParts := by
  unfold State.showLine
  split
  · rfl
  · dsimp only
    split
    · rfl
    · split
      · rfl
      · exact command_lineParts ..

theorem showLines_lineParts (s : State) : s.showLines.lineParts = s.lineParts := by
  unfold State.showLines
  split
  · exact foldl_keeps State.lineParts showLine_lineParts _ s
  · rfl

end Sys2Proof.Machine
end

section
/-! PROOFS. A rebuild's end leaves the Line Bus Controller as it is: one lemma for each operation it is made of. -/

namespace Sys2Proof.Machine

open Sys2Proof

theorem requestCoarse_lbc (s : State) (o : TimerOwner) (n : Nat) (mark : Option Nat) (periodic : Bool) :
    (s.requestCoarse o n mark periodic).1.lbc = s.lbc := by
  unfold State.requestCoarse
  split
  · split <;> rfl
  · rfl

theorem requestTimer_lbc (s : State) (o : TimerOwner) (n : Nat) (mark : Option Nat) (periodic : Bool) :
    (s.requestTimer o n mark periodic).1.lbc = s.lbc := by
  unfold State.requestTimer
  split
  · split
    · rfl
    · exact requestCoarse_lbc ..
  · split
    · split
      · rfl
      · exact requestCoarse_lbc ..
    · rfl

/-- The state that a request for a timer leaves, granted or refused. -/
theorem lbc_of_requestTimer {s t : State} {o : TimerOwner} {n : Nat} {h : Option Handle}
    (e : s.requestTimer o n = (t, h)) : t.lbc = s.lbc := by
  have hlbc := requestTimer_lbc s o n none false
  rwa [e] at hlbc

theorem updPairOf_lbc (s : State) (i : Nat) (f : Channel → Channel) : (s.updPairOf i f).lbc = s.lbc := by
  unfold State.updPairOf
  split <;> rfl

theorem stopTimer_lbc (s : State) (h : Handle) : (s.stopTimer h).lbc = s.lbc := by
  unfold State.stopTimer
  split
  · split
    · exact updPairOf_lbc ..
    · rfl
  · rfl

theorem endExhaustion_lbc (s : State) : s.endExhaustion.lbc = s.lbc := by
  unfold State.endExhaustion
  split <;> rfl

theorem releaseTimer_lbc (s : State) (h : Handle) : (s.releaseTimer h).lbc = s.lbc := by
  unfold State.releaseTimer
  split
  · split
    · exact (endExhaustion_lbc _).trans (updPairOf_lbc ..)
    · rfl
  · rfl

theorem releaseOpt_lbc (s : State) (h : Option Handle) : (s.releaseOpt h).lbc = s.lbc := by
  cases h with
  | none => rfl
  | some h => exact releaseTimer_lbc s h

theorem createRec_lbc (s : State) (r : TrainRec) : (s.createRec r).1.lbc = s.lbc := by
  unfold State.createRec
  split
  · rfl
  · split <;> rfl

/-- The state that a creation request leaves, whatever the answer. -/
theorem lbc_of_createRec {s t : State} {r : TrainRec} {a : CreateResult} (e : s.createRec r = (t, a)) :
    t.lbc = s.lbc := by
  have hlbc := createRec_lbc s r
  rwa [e] at hlbc

theorem convert_lbc (s : State) (p tag : Nat) : (s.convert p tag).lbc = s.lbc := by
  have hraised := fun (l : List Nat) (t : State) =>
    foldl_keeps State.lbc (g := fun (w : State) run => w.raise .runConflict (Loc.ofRunAt run p)) (fun _ _ => rfl) l t
  unfold State.convert
  split
  · rfl
  · dsimp only
    split
    · split <;> exact hraised _ _
    · exact hraised _ _

theorem unknownArrival_lbc (s : State) (p : Nat) (c : PlatformCfg) (aa : Option Nat) :
    (s.unknownArrival p c aa).lbc = s.lbc := by
  unfold State.unknownArrival
  dsimp only
  split
  · next hc =>
    have hmade := lbc_of_createRec hc
    split
    · exact (convert_lbc ..).trans hmade
    · exact hmade
  · next hc =>
    have hsame := lbc_of_createRec hc
    exact hsame

theorem startWatch_lbc (s : State) (tag : Nat) : (s.startWatch tag).lbc = s.lbc := by
  unfold State.startWatch
  split
  · rfl
  · split
    · rfl
    · split
      · next e => exact lbc_of_requestTimer e
      · next e =>
        dsimp only
        split
        · exact lbc_of_requestTimer e
        · exact (stopTimer_lbc ..).trans (lbc_of_requestTimer e)

theorem joinReceived_lbc (s : State) (d : Dir) (e : SentEntry) : (s.joinReceived d e).lbc = s.lbc := by
  cases d <;> rfl

theorem placeAtBerth_lbc (s : State) (d : Dir) (p : Nat) (c : PlatformCfg) (e : SentEntry) :
    (s.placeAtBerth d p c e).1.lbc = s.lbc := by
  unfold State.placeAtBerth
  dsimp only
  split
  · next hc =>
    have hmade := lbc_of_createRec hc
    split
    · exact (convert_lbc ..).trans ((joinReceived_lbc ..).trans hmade)
    · exact (joinReceived_lbc ..).trans hmade
  · next hc => exact lbc_of_createRec hc

/-- The state that a candidate put to a berth leaves, placed or not. -/
theorem lbc_of_placeAtBerth {s t : State} {d : Dir} {p : Nat} {c : PlatformCfg} {e : SentEntry} {b : Bool}
    (h : s.placeAtBerth d p c e = (t, b)) : t.lbc = s.lbc := by
  have hlbc := placeAtBerth_lbc s d p c e
  rwa [h] at hlbc

theorem fillBerth_lbc (s : State) (d : Dir) (p : Nat) (c : PlatformCfg) (es : List SentEntry) :
    (s.fillBerth d p c es).1.lbc = s.lbc := by
  induction es generalizing s with
  | nil => rfl
  | cons e es ih =>
    unfold State.fillBerth
    split
    · next h => exact lbc_of_placeAtBerth h
    · next h => exact (ih _).trans (lbc_of_placeAtBerth h)

theorem fillBerths_lbc (s : State) (d : Dir) (ps : List Nat) (es : List SentEntry) :
    (s.fillBerths d ps es).1.lbc = s.lbc := by
  induction ps generalizing s es with
  | nil => rfl
  | cons p ps ih =>
    unfold State.fillBerths
    split
    · exact (ih _ _).trans (fillBerth_lbc ..)
    · exact ih s es

theorem placeApproaching_lbc (s : State) (d : Dir) (e : SentEntry) : (s.placeApproaching d e).lbc = s.lbc := by
  unfold State.placeApproaching
  split
  · next h => exact ((startWatch_lbc ..).trans (joinReceived_lbc ..)).trans (lbc_of_createRec h)
  · next h => exact lbc_of_createRec h

theorem leftBerths_lbc (s : State) (d : Dir) : (s.leftBerths d).lbc = s.lbc := by
  refine foldl_keeps State.lbc (fun t p => ?_) _ s
  split
  · exact unknownArrival_lbc ..
  · rfl

theorem placeDirection_lbc (s : State) (d : Dir) : (s.placeDirection d).lbc = s.lbc :=
  (leftBerths_lbc ..).trans ((foldl_keeps State.lbc (fun t e => placeApproaching_lbc t d e) _ _).trans
    (fillBerths_lbc ..))

theorem enterRunning_lbc (s : State) : s.enterRunning.lbc = s.lbc := rfl

theorem finishRebuild_start (s : State) : s.finishRebuild.cfl.start = .running :=
  congrArg Outside.start (finishRebuild_outside s)

theorem cfg_of_outside {s : State} {o : Outside} (h : s.outside = o) : s.cfg = o.cfg := congrArg Outside.cfg h

theorem finishRebuild_cfg (s : State) : s.finishRebuild.cfg = s.cfg := cfg_of_outside (finishRebuild_outside s)

theorem finishRebuild_lbc (s : State) : s.finishRebuild.lbc = s.lbc := by
  unfold State.finishRebuild
  dsimp only
  rw [enterRunning_lbc, placeDirection_lbc, placeDirection_lbc]
  exact releaseOpt_lbc s s.hoe.rebuildTimer

end Sys2Proof.Machine
end

section
/-! PROOFS. The status period: the rebuild's fallback, the STATUS handed to the CONTROL queue, and the command. -/

namespace Sys2Proof.Machine

open Sys2Proof

/-! ## The STATUS in the CONTROL queue (R162) -/

/-- A STATUS that takes a queued one's place is in the queue. -/
theorem replaceStatus_mem {x : TxItem} {l q : List TxItem} (h : replaceStatus x l = some q) :
    ∃ y ∈ q, y.tg = x.tg ∧ y.probe = x.probe := by
  induction l generalizing q with
  | nil => cases h
  | cons i is ih =>
    unfold replaceStatus at h
    split at h
    · cases h
      exact ⟨_, List.mem_cons_self, rfl, rfl⟩
    · obtain ⟨r, hr, rfl⟩ := Option.map_eq_some_iff.mp h
      obtain ⟨y, hy, hsame⟩ := ih hr
      exact ⟨y, List.mem_cons_of_mem i hy, hsame⟩

/-- A telegram as it is handed, with no note and no attempt made. -/
def freshItem (tg : Telegram) (probe : Bool) : TxItem :=
  { tg := tg, attempts := 0, backoff := false, probe := probe, note := .none }

/-- In REBUILD and RUNNING what is handed is placed, in MUTE the probe alone (R161, R166). -/
theorem hand_placed {s : State} (tg : Telegram) {probe : Bool} (hspeak : s.speaking = true)
    (hmute : s.lbc.mute = false ∨ probe = true) : s.hand tg .none probe = s.placeTelegram (freshItem tg probe) := by
  have hpass : (s.lbc.mute && !probe) = false := by rcases hmute with h | h <;> simp [h]
  simp only [State.hand, hspeak, hpass, if_true, Bool.false_eq_true, if_false, freshItem]

/-- Where the CONTROL queue has a place a telegram of its class joins the tail. -/
theorem joinQueue_control {s : State} {x : TxItem} (hcls : x.tg.body.cls = .control)
    (hroom : s.lbc.controlQ.length < 16) :
    s.joinQueue x = { s with lbc := { s.lbc with controlQ := s.lbc.controlQ ++ [x] } } := by
  simp only [State.joinQueue, hcls]
  exact if_pos hroom

/-- Where the CONTROL queue has a place, handing a STATUS puts it there and changes nothing else. -/
theorem hand_status {s : State} {tg : Telegram} {b : StatusBody} {probe : Bool} (hspeak : s.speaking = true)
    (hbody : tg.body = .status b) (hmute : s.lbc.mute = false ∨ probe = true) (hroom : s.lbc.controlQ.length < 16) :
    ∃ q, s.hand tg .none probe = { s with lbc := { s.lbc with controlQ := q } } ∧
      ∃ y ∈ q, y.tg = tg ∧ y.probe = probe := by
  have hstatus : (freshItem tg probe).isStatus = true := by simp [TxItem.isStatus, freshItem, hbody]
  have hcls : (freshItem tg probe).tg.body.cls = .control := by simp [freshItem, hbody, Body.cls]
  rw [hand_placed tg hspeak hmute, State.placeTelegram, if_pos hstatus]
  split
  · next q hq => exact ⟨q, rfl, replaceStatus_mem hq⟩
  · exact ⟨_, joinQueue_control hcls hroom, freshItem tg probe, List.mem_append_right _ List.mem_cons_self, rfl, rfl⟩

/-! ## The rebuild's fallback (R64) -/

theorem settled_giveUp (h : HoeDir) : h.giveUp.settled = true := by
  unfold HoeDir.giveUp HoeDir.settled
  cases h.upSide <;> cases h.downSide <;> rfl

/-- Outside REBUILD, or with a rebuild timer, the period leaves the rebuild as it is. -/
theorem rebuildPeriod_none {s : State} (h : s.cfl.start ≠ .rebuild ∨ s.hoe.rebuildFallback = none) :
    s.rebuildPeriod = s := by
  unfold State.rebuildPeriod
  split
  · next n hs hn => rcases h with h | h <;> simp [hs, hn] at h
  · rfl

/-- With no rebuild timer a period before the last is counted. -/
theorem rebuildPeriod_counts {s : State} {n : Nat} (hs : s.cfl.start = .rebuild)
    (hn : s.hoe.rebuildFallback = some n) (h : 1 < n) :
    s.rebuildPeriod = { s with hoe := { s.hoe with rebuildFallback := some (n - 1) } } := by
  simp only [State.rebuildPeriod, hs, hn, if_neg (Nat.not_le.mpr h)]

/-- With no rebuild timer the last period ends the rebuild: every side is settled. -/
theorem rebuildPeriod_ends {s : State} {n : Nat} (hs : s.cfl.start = .rebuild)
    (hn : s.hoe.rebuildFallback = some n) (h : n ≤ 1) :
    s.rebuildPeriod =
      ({ s with hoe := { s.hoe with up := s.hoe.up.giveUp, down := s.hoe.down.giveUp } } : State).finishRebuild := by
  simp only [State.rebuildPeriod, hs, hn, if_pos h, State.rebuildExpires, State.checkRebuild, settled_giveUp,
    beq_self_eq_true, Bool.and_self, if_true]

/-! ## The period (R152, R171) -/

/-- The status period's expiry is taken. -/
def State.periodTaken (s : State) : State := s.updChan 4 (fun c => { c with expiryDue := false })

/-- This node's STATUS as a telegram to all. -/
def State.ownStatus (s : State) : Telegram := { sender := s.cfg.node, target := 0, body := .status s.statusBody }

/-- The STATUS of a period is given to the line: handed, but in MUTE nine periods pass and the tenth hands it as the
probe (R166). -/
def State.giveStatus (s : State) (tg : Telegram) : State :=
  if s.lbc.mute then
    if s.lbc.mutePeriods + 1 < 10 then { s with lbc := { s.lbc with mutePeriods := s.lbc.mutePeriods + 1 } }
    else ({ s with lbc := { s.lbc with mutePeriods := 0 } } : State).hand tg .none true
  else s.hand tg

/-- A node that transmits nothing forms no STATUS. -/
theorem formStatus_silent {s : State} (h : s.speaking = false) : s.formStatus = s := by
  simp [State.formStatus, h]

/-- In REBUILD and RUNNING the node's STATUS is given to the line. -/
theorem formStatus_speaking {s : State} (h : s.speaking = true) : s.formStatus = s.giveStatus s.ownStatus := by
  unfold State.formStatus
  rw [if_pos h]
  rfl

theorem speaking_of_running {s : State} (h : s.cfl.start = .running) : s.speaking = true := by
  simp [State.speaking, h]

theorem speaking_of_rebuild {s : State} (h : s.cfl.start = .rebuild) : s.speaking = true := by
  simp [State.speaking, h]

/-- Outside MUTE the STATUS waits in the CONTROL queue when there is a place. -/
theorem giveStatus_queued {s : State} {tg : Telegram} {b : StatusBody} (hspeak : s.speaking = true)
    (hbody : tg.body = .status b) (hmute : s.lbc.mute = false) (hroom : s.lbc.controlQ.length < 16) :
    ∃ q, s.giveStatus tg = { s with lbc := { s.lbc with controlQ := q } } ∧ ∃ y ∈ q, y.tg = tg ∧ y.probe = false := by
  have hhand : s.giveStatus tg = s.hand tg := if_neg (by simp [hmute])
  rw [hhand]
  exact hand_status hspeak hbody (.inl hmute) hroom

/-- The tenth period in MUTE puts the probe in the CONTROL queue when there is a place (R166). -/
theorem giveStatus_probe {s : State} {tg : Telegram} {b : StatusBody} (hspeak : s.speaking = true)
    (hbody : tg.body = .status b) (hmute : s.lbc.mute = true) (hten : 9 ≤ s.lbc.mutePeriods)
    (hroom : s.lbc.controlQ.length < 16) :
    ∃ q, s.giveStatus tg = { s with lbc := { s.lbc with mutePeriods := 0, controlQ := q } } ∧
      ∃ y ∈ q, y.tg = tg ∧ y.probe = true := by
  have hhand : s.giveStatus tg = ({ s with lbc := { s.lbc with mutePeriods := 0 } } : State).hand tg .none true :=
    (if_pos hmute).trans (if_neg (by omega))
  rw [hhand]
  exact hand_status (s := { s with lbc := _ }) hspeak hbody (.inr rfl) hroom

/-- In RUNNING the display lines follow the STATUS (R144). -/
theorem statusPeriod_running {s : State} (hs : s.cfl.start = .running) :
    s.statusPeriod = (s.periodTaken.giveStatus s.ownStatus).showLines := by
  have hrun : s.isRunning = true := beq_iff_eq.mpr hs
  have hkept : s.periodTaken.rebuildPeriod = s.periodTaken :=
    rebuildPeriod_none (.inl (by simp [State.periodTaken, hs]))
  have hform : s.periodTaken.formStatus = s.periodTaken.giveStatus s.ownStatus :=
    formStatus_speaking (speaking_of_running (s := s.periodTaken) hs)
  calc s.statusPeriod
    _ = s.periodTaken.rebuildPeriod.formStatus.showLines := if_pos hrun
    _ = (s.periodTaken.giveStatus s.ownStatus).showLines := by rw [hkept, hform]

/-- Before RUNNING no display line follows. -/
theorem statusPeriod_before {s : State} (hs : s.cfl.start ≠ .running) :
    s.statusPeriod = s.periodTaken.rebuildPeriod.formStatus :=
  if_neg (fun h => hs (beq_iff_eq.mp h))

theorem statusPeriod_silent {s : State} (h : s.speaking = false) : s.statusPeriod = s.periodTaken := by
  have hrunning : s.cfl.start ≠ .running := fun hs => by simp [speaking_of_running hs] at h
  have hrebuild : s.periodTaken.cfl.start ≠ .rebuild := fun hs => by simp [speaking_of_rebuild (s := s) hs] at h
  rw [statusPeriod_before hrunning, rebuildPeriod_none (.inl hrebuild), formStatus_silent (s := s.periodTaken) h]

/-- In REBUILD with its timer the STATUS alone is given. -/
theorem statusPeriod_rebuild {s : State} (hs : s.cfl.start = .rebuild) (hn : s.hoe.rebuildFallback = none) :
    s.statusPeriod = s.periodTaken.giveStatus s.ownStatus := by
  rw [statusPeriod_before (by simp [hs]), rebuildPeriod_none (s := s.periodTaken) (.inr hn)]
  exact formStatus_speaking (speaking_of_rebuild (s := s.periodTaken) hs)

/-- In REBUILD with no timer a period before the last is counted, and the STATUS given. -/
theorem statusPeriod_counts {s : State} {n : Nat} (hs : s.cfl.start = .rebuild) (hn : s.hoe.rebuildFallback = some n)
    (h : 1 < n) :
    s.statusPeriod =
      ({ s.periodTaken with hoe := { s.hoe with rebuildFallback := some (n - 1) } } : State).giveStatus
        s.ownStatus := by
  rw [statusPeriod_before (by simp [hs]), rebuildPeriod_counts (s := s.periodTaken) hs hn h]
  exact formStatus_speaking (speaking_of_rebuild (s := { s.periodTaken with hoe := _ }) hs)

/-- The rebuild ended for want of a timer: every side still ASKED is given up (R64). -/
def State.rebuildGivenUp (s : State) : State :=
  ({ s.periodTaken with hoe := { s.hoe with up := s.hoe.up.giveUp, down := s.hoe.down.giveUp } } : State).finishRebuild

/-- In REBUILD with no timer the last period ends the rebuild first, and hands the STATUS of a RUNNING node. -/
theorem statusPeriod_ends {s : State} {n : Nat} (hs : s.cfl.start = .rebuild) (hn : s.hoe.rebuildFallback = some n)
    (h : n ≤ 1) (hmute : s.lbc.mute = false) :
    s.statusPeriod = s.rebuildGivenUp.hand { s.ownStatus with body := .status s.rebuildGivenUp.statusBody } := by
  have hend : s.periodTaken.rebuildPeriod = s.rebuildGivenUp := rebuildPeriod_ends (s := s.periodTaken) hs hn h
  have hspeak : s.rebuildGivenUp.speaking = true := speaking_of_running (finishRebuild_start _)
  have hlbc : s.rebuildGivenUp.lbc = s.lbc := finishRebuild_lbc _
  have hown : s.rebuildGivenUp.ownStatus = { s.ownStatus with body := .status s.rebuildGivenUp.statusBody } := by
    have hcfg : s.rebuildGivenUp.cfg = s.cfg := finishRebuild_cfg _
    simp only [State.ownStatus, hcfg]
  rw [statusPeriod_before (by simp [hs]), hend, formStatus_speaking hspeak, hown]
  exact if_neg (by simp [hlbc, hmute])

/-- Where the rebuild's fallback does not run, the period does of the line what giving the STATUS does. -/
theorem statusPeriod_lineParts {s : State} (hspeak : s.speaking = true) (hn : s.hoe.rebuildFallback = none) :
    s.statusPeriod.lineParts = (s.periodTaken.giveStatus s.ownStatus).lineParts := by
  cases hs : s.cfl.start with
  | running => rw [statusPeriod_running hs, showLines_lineParts]
  | rebuild => rw [statusPeriod_rebuild hs hn]
  | loading | listen | configFault => simp [State.speaking, hs] at hspeak

/-! ## STATUS_PERIOD -/

theorem execStatusPeriod_taken {s : State} (hr : s.Ready) (hdue : (s.chan 4).expiryDue = true) :
    exec .statusPeriod s = .next (finish s.statusPeriod) :=
  onEvent_taken s _ State.statusPeriod hr.1 hdue

/-- A period that changes the Line Bus Controller, and asks for nothing, ends with that change. -/
theorem execStatusPeriod_lbc {s : State} {l : Lbc} (hr : s.Ready) (hdue : (s.chan 4).expiryDue = true)
    (hparts : s.statusPeriod.lineParts = (l, s.inu, s.work)) : ∃ t, exec .statusPeriod s = .next t ∧ t.lbc = l := by
  simp only [State.lineParts, Prod.mk.injEq] at hparts
  obtain ⟨hlbc, hinu, hwork⟩ := hparts
  have hquiet : s.statusPeriod.Quiet := ⟨hwork.trans hr.2.1, (congrArg Inu.dirty hinu).trans hr.2.2⟩
  exact ⟨s.statusPeriod, by rw [execStatusPeriod_taken hr hdue, finish_quiet _ hquiet], hlbc⟩

/-- In RUNNING outside MUTE the STATUS is in the CONTROL queue after the period, if there was a place. -/
theorem execStatusPeriod_queues {s : State} (hr : s.Ready) (hdue : (s.chan 4).expiryDue = true)
    (hs : s.cfl.start = .running) (hmute : s.lbc.mute = false) (hroom : s.lbc.controlQ.length < 16) :
    ∃ t, exec .statusPeriod s = .next t ∧ ∃ x ∈ t.lbc.controlQ, x.tg = s.ownStatus ∧ x.probe = false := by
  obtain ⟨q, hq, hin⟩ := giveStatus_queued (s := s.periodTaken) (tg := s.ownStatus)
    (speaking_of_running (s := s.periodTaken) hs) rfl hmute hroom
  obtain ⟨t, ht, hlbc⟩ := execStatusPeriod_lbc hr hdue (l := { s.lbc with controlQ := q })
    (by rw [statusPeriod_running hs, showLines_lineParts, hq]; rfl)
  exact ⟨t, ht, by rw [hlbc]; exact hin⟩

/-- In MUTE the tenth period leaves the probe in the CONTROL queue, if there was a place. -/
theorem execStatusPeriod_probes {s : State} (hr : s.Ready) (hdue : (s.chan 4).expiryDue = true)
    (hspeak : s.speaking = true) (hn : s.hoe.rebuildFallback = none) (hmute : s.lbc.mute = true)
    (hten : 9 ≤ s.lbc.mutePeriods) (hroom : s.lbc.controlQ.length < 16) :
    ∃ t, exec .statusPeriod s = .next t ∧ t.lbc.mutePeriods = 0 ∧
      ∃ x ∈ t.lbc.controlQ, x.tg = s.ownStatus ∧ x.probe = true := by
  obtain ⟨q, hq, hin⟩ := giveStatus_probe (s := s.periodTaken) (tg := s.ownStatus) hspeak rfl hmute hten hroom
  obtain ⟨t, ht, hlbc⟩ := execStatusPeriod_lbc hr hdue (l := { s.lbc with mutePeriods := 0, controlQ := q })
    (by rw [statusPeriod_lineParts hspeak hn, hq]; rfl)
  exact ⟨t, ht, by rw [hlbc], by rw [hlbc]; exact hin⟩

/-- Settles O17: the period by the start state, each line by what is held and was last sent, its entries by R144. -/
theorem statusPeriodSendsStatus : Obligations.StatusPeriodSendsStatus := by
  refine ⟨fun s hr hdue => ?_, fun s hs => ⟨showLines_station hs, showLines_console, fun p c hc => ?_⟩, fun p c s => ?_⟩
  · intro u status formed
    have hexec : exec .statusPeriod s = .next (finish s.statusPeriod) := execStatusPeriod_taken hr hdue
    refine ⟨fun hs => ?_, fun hs hn => ?_, fun n hs hn h => ?_, fun n hs hn h hmute => ?_, fun hsilent => ?_,
      execStatusPeriod_queues hr hdue, execStatusPeriod_probes hr hdue⟩
    · rw [hexec, statusPeriod_running hs]
      rfl
    · rw [hexec, statusPeriod_rebuild hs hn]
      rfl
    · rw [hexec, statusPeriod_counts hs hn h]
      rfl
    · rw [hexec, statusPeriod_ends hs hn h hmute]
      rfl
    · rw [hexec, statusPeriod_silent hsilent]
      exact congrArg _ (finish_quiet s.periodTaken hr.2)
  · intro held
    refine ⟨fun hheld => ?_, fun hheld hlast => showLine_same hc hheld hlast,
      fun hheld hlast => showLine_changed hc hheld hlast⟩
    have hline := showLine_held hc hheld
    simp only [replaceDisplay_eq] at hline
    exact hline
  · intro entry ind here coming
    have hhere : s.berthedEntry p = here := berthedEntry_eq s p
    have hcoming : s.comingEntries p c = coming := by
      have hind : indicationFor = ind := by
        funext now t
        exact indicationFor_eq now t
      funext now
      simp only [State.comingEntries, State.launchEntries, State.approachEntries, State.upstreamEntry, hind, coming]
      cases c.turnback <;> rfl
    have hline := lineOf_eq s p c
    rw [hhere, hcoming] at hline
    exact hline

end Sys2Proof.Machine
end

section
/-! PROOFS. Start arbitration: starts and asks that leave, asks that go again, and the exchange of POWER_ASK,
POWER_RETURN, POWER_GRANT and POWER_DEFER with the node that shares a section. -/

namespace Sys2Proof.Machine

open Sys2Proof

/-! ## Starts and asks that leave (R91, R97, R100) -/

/-- The counted start that ends first in the list is the one that leaves (R91; log 11). -/
theorem countedEnd_of_find {s : State} {k : Nat} {c : Counted}
    (hc : (s.arb k).counted.find? (fun x => s.reached x.endTime) = some c) :
    s.countedEnd k = (s.updCounted k (fun l => l.erase c)).reevaluate k := by
  simp only [State.countedEnd, hc]

/-- The taken start whose window is over first in the list is the one that leaves (R100; log 11). -/
theorem takenEnd_of_find {s : State} {k : Nat} {x : Taken}
    (hx : (s.arb k).taken.find? (fun t => s.reached (t.takenAt + s.cfg.sw)) = some x) :
    s.takenEnd k = s.updTaken k (fun l => l.erase x) := by
  simp only [State.takenEnd, hx]

/-- The ask unheard for 30 that stands first in the queue is the one that leaves (R97; log 11). -/
theorem unheardAsk_of_find {s : State} {k : Nat} {a : QueuedAsk}
    (ha : (s.arb k).queue.find? (fun x => match x.heard with | some t => s.reached (t + 30) | none => false) = some a) :
    s.unheardAsk k = (s.updQueue k (fun q => q.erase a)).reevaluate k := by
  unfold State.unheardAsk
  split
  · rename_i b hb
    cases hb.symm.trans ha
    rfl
  · rename_i hb
    cases hb.symm.trans ha

theorem execCountedStartExpiry_taken {s : State} {k : Nat} {c : Counted} (hr : s.Ready)
    (hc : (s.arb k).counted.find? (fun x => s.reached x.endTime) = some c) :
    exec (.countedStartExpiry k) s = .next (finish (s.countedEnd k)) :=
  onEvent_taken s _ (fun u => u.countedEnd k) hr.1
    (List.any_eq_true.mpr ⟨c, List.mem_of_find?_eq_some hc,
      List.find?_some (p := fun x : Counted => s.reached x.endTime) hc⟩)

theorem execTakenStartExpiry_taken {s : State} (k : Nat) (hr : s.Ready) :
    exec (.takenStartExpiry k) s = .next (finish (s.takenEnd k)) :=
  onEvent_taken s true (fun u => u.takenEnd k) hr.1 rfl

theorem execQueuedAskRefreshExpiry_taken {s : State} (k : Nat) (hr : s.Ready) :
    exec (.queuedAskRefreshExpiry k) s = .next (finish (s.unheardAsk k)) :=
  onEvent_taken s true (fun u => u.unheardAsk k) hr.1 rfl

/-- A change of one section's arbiter records is the whole event where nothing was left to take. -/
theorem finish_updArb {s : State} (k : Nat) (f : Arb → Arb) (hr : s.Ready) :
    finish (s.updArb k f) = s.updArb k f := finish_quiet (s.updArb k f) hr.2

/-- Settles O35: in each list the first that is over leaves. -/
theorem startsAndAsksLeave : Obligations.StartsAndAsksLeave := by
  refine ⟨fun k c s hr hc => ?_, fun k x s hr hx => ?_, fun k a s hr ha => ?_⟩
  · rw [execCountedStartExpiry_taken hr hc, countedEnd_of_find hc]
    rfl
  · rw [execTakenStartExpiry_taken k hr, takenEnd_of_find hx]
    exact congrArg _ (finish_updArb k _ hr)
  · rw [execQueuedAskRefreshExpiry_taken k hr, unheardAsk_of_find ha]
    rfl

/-! ## Waits that end (R95, R99, R107) -/

/-- A remote ask goes to the owner at the end of its retry wait (R107; log 43). -/
theorem presentAgain_remote {s : State} {p k : Nat} (hk : s.secIndex (s.asker p).sec = some k)
    (hroute : (s.asker p).route = .remote) : s.presentAgain p = s.sendAsk k p := by
  simp [State.presentAgain, hk, hroute]

/-- A local or stand-in ask goes to the queue at the end of its retry wait (R95). -/
theorem presentAgain_here {s : State} {p k : Nat} (hk : s.secIndex (s.asker p).sec = some k)
    (hroute : (s.asker p).route ≠ .remote) : s.presentAgain p = s.presentAsk k p := by
  simp [State.presentAgain, hk, hroute]

/-- An answer wait with a POWER_DEFER in it ends in the next POWER_ASK alone (R99). -/
theorem askAgain_deferred {s : State} {p k : Nat} (hk : s.secIndex (s.asker p).sec = some k)
    (hd : (s.asker p).deferred = true) : s.askAgain p = s.sendAsk k p := by
  simp [State.askAgain, hk, hd]

/-- An answer wait with no answer is DEFER, and the next POWER_ASK follows (R99). -/
theorem askAgain_unanswered {s : State} {p k : Nat} (hk : s.secIndex (s.asker p).sec = some k)
    (hd : (s.asker p).deferred = false) :
    s.askAgain p = (s.post (.defer p (s.asker p).serial)).sendAsk k p := by
  simp [State.askAgain, hk, hd]

/-- The end of an asker record's wait falls due in the phase it waits in. -/
theorem askerDue_of_reached {s : State} {p : Nat} {ph : AskPhase} (hphase : (s.asker p).phase = ph)
    (hend : s.reachedOpt (s.asker p).waitEnd = true) : s.askerDue p ph = true := by
  simp [State.askerDue, hphase, hend]

theorem execRetryWaitEnd_taken {s : State} {p : Nat} (hr : s.Ready) (hdue : s.askerDue p .retryWait = true) :
    exec (.retryWaitEnd p) s = .next (finish (s.presentAgain p)) :=
  onEvent_taken s _ (fun u => u.presentAgain p) hr.1 hdue

theorem execAskWaitEnd_taken {s : State} {p : Nat} (hr : s.Ready) (hdue : s.askerDue p .waiting = true) :
    exec (.askWaitEnd p) s = .next (finish (s.askAgain p)) :=
  onEvent_taken s _ (fun u => u.askAgain p) hr.1 hdue

/-- Settles O36: the retry wait by the ask's route, the answer wait by whether a POWER_DEFER came in it. -/
theorem asksGoAgain : Obligations.AsksGoAgain := by
  intro p k s hr hk hend
  refine ⟨fun hphase hroute => ?_, fun hphase hroute => ?_, fun hphase hd => ?_, fun hphase hd => ?_⟩
  · rw [execRetryWaitEnd_taken hr (askerDue_of_reached hphase hend), presentAgain_remote hk hroute]
  · rw [execRetryWaitEnd_taken hr (askerDue_of_reached hphase hend), presentAgain_here hk hroute]
  · rw [execAskWaitEnd_taken hr (askerDue_of_reached hphase hend), askAgain_deferred hk hd]
  · rw [execAskWaitEnd_taken hr (askerDue_of_reached hphase hend), askAgain_unanswered hk hd]

/-! ## Telegrams about a section (R96, R98, R100) -/

/-- What a telegram about a section does: taken in RUNNING, for the section record that its sender has to do with. -/
def State.atShared (s : State) (found : Option Nat) (f : Nat → State → State) : State :=
  match found with
  | some k => if s.isRunning then f k s else s
  | none => s

theorem atShared_taken {s : State} (k : Nat) (f : Nat → State → State) (hs : s.cfl.start = .running) :
    s.atShared (some k) f = f k s := by
  simp [State.atShared, State.isRunning, hs]

theorem atShared_unknown (s : State) (f : Nat → State → State) : s.atShared none f = s := rfl

theorem atShared_before {s : State} (found : Option Nat) (f : Nat → State → State) (hs : s.cfl.start ≠ .running) :
    s.atShared found f = s := by
  cases found <;> simp [State.atShared, State.isRunning, hs]

section
variable {s : State} {sender : Nat} {ts : List Received}

theorem execPowerAsk_taken {b : PowerAskBody} (hr : s.Ready) (hrole : s.cfg.role = .station)
    (hh : s.HeadIs { sender := sender, target := s.cfg.node, body := .powerAsk b } ts) :
    exec .powerAsk s = .next (finish ((s.withRx ts).atShared (s.sharedWith sender b.sec)
      (fun k u => u.ownerAsk k sender b))) :=
  onKind_station s _ _ _ ts hr.1 hrole hh rfl

theorem execPowerReturn_taken {id p serial : Nat} (hr : s.Ready) (hrole : s.cfg.role = .station)
    (hh : s.HeadIs { sender := sender, target := s.cfg.node, body := .powerReturn id p serial } ts) :
    exec .powerReturn s = .next (finish ((s.withRx ts).atShared (s.sharedWith sender id)
      (fun k u => u.ownerReturn k sender p serial))) :=
  onKind_station s _ _ _ ts hr.1 hrole hh rfl

theorem execPowerGrant_taken {id p serial : Nat} (hr : s.Ready) (hrole : s.cfg.role = .station)
    (hh : s.HeadIs { sender := sender, target := s.cfg.node, body := .powerGrant id p serial } ts) :
    exec .powerGrant s = .next (finish ((s.withRx ts).atShared (s.ownedBy sender id)
      (fun k u => u.askerGrant k id p serial))) :=
  onKind_station s _ _ _ ts hr.1 hrole hh rfl

theorem execPowerDefer_taken {id p serial : Nat} {full : Bool} (hr : s.Ready) (hrole : s.cfg.role = .station)
    (hh : s.HeadIs { sender := sender, target := s.cfg.node, body := .powerDefer id p serial full } ts) :
    exec .powerDefer s = .next (finish ((s.withRx ts).atShared (s.ownedBy sender id)
      (fun _ u => u.askerDefer id p serial))) :=
  onKind_station s _ _ _ ts hr.1 hrole hh rfl

end

/-! ## POWER_ASK at the owner (R94, R96, R97) -/

/-- The queued ask that a POWER_ASK of a node becomes at a running time (R96). -/
def PowerAskBody.queuedAt (b : PowerAskBody) (node now : Nat) : QueuedAsk :=
  { node := node, platform := b.platform, serial := b.serial, ready := b.ready, demand := b.demand,
    credit := b.credit, overrideFlag := b.overrideFlag, heard := some now }

/-- The ask that a POWER_ASK repeats is heard again, and is an override from the first flag on (R97). -/
def State.noteAsk (s : State) (k node : Nat) (b : PowerAskBody) : State :=
  s.updQueue k (fun q => q.map (fun x =>
    if x.is node b.platform b.serial then
      { x with heard := some s.runTime, overrideFlag := x.overrideFlag || b.overrideFlag }
    else x))

section
variable {s : State} {k node : Nat} {b : PowerAskBody}

theorem ownerAsk_counted (hc : (s.arb k).counted.any (Counted.is node b.platform b.serial) = true) :
    s.ownerAsk k node b = s.send node (.powerGrant b.sec b.platform b.serial) := by
  simp only [State.ownerAsk, hc, if_true]

theorem ownerAsk_full (hc : (s.arb k).counted.any (Counted.is node b.platform b.serial) = false)
    (hq : (s.arb k).queue.find? (QueuedAsk.is node b.platform b.serial) = none)
    (hfull : askRoom ≤ (dropPair node b.platform (s.arb k).queue).length) :
    s.ownerAsk k node b = s.send node (.powerDefer b.sec b.platform b.serial true) := by
  simp only [State.ownerAsk, hc, hq, Bool.false_eq_true, if_false, if_pos hfull]

theorem ownerAsk_new (hc : (s.arb k).counted.any (Counted.is node b.platform b.serial) = false)
    (hq : (s.arb k).queue.find? (QueuedAsk.is node b.platform b.serial) = none)
    (hroom : (dropPair node b.platform (s.arb k).queue).length < askRoom) :
    s.ownerAsk k node b = ((s.updQueue k (fun _ =>
      insertAsk (b.queuedAt node s.runTime) (dropPair node b.platform (s.arb k).queue))).reevaluate k).answerQueued
        k node b := by
  simp only [State.ownerAsk, hc, hq, Bool.false_eq_true, if_false, if_neg (Nat.not_le.mpr hroom)]
  rfl

theorem ownerAsk_queued {a : QueuedAsk} (hc : (s.arb k).counted.any (Counted.is node b.platform b.serial) = false)
    (hq : (s.arb k).queue.find? (QueuedAsk.is node b.platform b.serial) = some a) :
    s.ownerAsk k node b =
      (if (b.overrideFlag && !a.overrideFlag) = true then (s.noteAsk k node b).reevaluate k
        else s.noteAsk k node b).answerQueued k node b := by
  simp only [State.ownerAsk, hc, hq, Bool.false_eq_true, if_false]
  rfl

end

/-- In RUNNING a POWER_ASK of the partner of an owned section is the owner's to answer. -/
theorem execPowerAsk_shared {s : State} {sender k : Nat} {b : PowerAskBody} {ts : List Received} (hr : s.Ready)
    (hrole : s.cfg.role = .station) (hs : s.cfl.start = .running)
    (hh : s.HeadIs { sender := sender, target := s.cfg.node, body := .powerAsk b } ts)
    (hk : s.sharedWith sender b.sec = some k) :
    exec .powerAsk s = .next (finish ((s.withRx ts).ownerAsk k sender b)) := by
  have hs' : (s.withRx ts).cfl.start = .running := hs
  rw [execPowerAsk_taken hr hrole hh, hk, atShared_taken k _ hs']

/-- Settles O37: the order of Table 5-4's tests at the owner, and the two ways to be discarded. -/
theorem powerAskIsAnswered : Obligations.PowerAskIsAnswered := by
  refine ⟨fun sender k b ts s hr hrole hs hh hk => ?_, fun sender b ts s hr hrole hh hno => ?_,
    fun k node b s => rfl⟩
  · intro u counted queued others ask
    have hexec : exec .powerAsk s = .next (finish (u.ownerAsk k sender b)) := execPowerAsk_shared hr hrole hs hh hk
    rw [hexec]
    refine ⟨fun hc => ?_, fun hc hq hfull => ?_, fun hc hq hroom => ?_, fun a hc hq => ?_⟩
    · rw [ownerAsk_counted (s := u) hc]
    · rw [ownerAsk_full (s := u) hc hq hfull]
    · rw [ownerAsk_new (s := u) hc hq hroom]
      rfl
    · intro noted
      have hown := ownerAsk_queued (s := u) hc hq
      refine ⟨fun hold => ?_, fun hnew => ?_⟩
      · rw [hown, if_neg (by simp [hold])]
        rfl
      · rw [hown, if_pos hnew]
        rfl
  · rw [execPowerAsk_taken hr hrole hh]
    have hdrop : (s.withRx ts).atShared (s.sharedWith sender b.sec) (fun k u => u.ownerAsk k sender b) =
        s.withRx ts := by
      rcases hno with hs | hnone
      · exact atShared_before (s := s.withRx ts) _ _ hs
      · rw [hnone, atShared_unknown]
    rw [hdrop, finish_withRx ts hr]

/-! ## POWER_RETURN at the owner (R98) -/

/-- Settles O38: the owner's removal in RUNNING, or nothing for a node that shares no such section. -/
theorem powerReturnRemoves : Obligations.PowerReturnRemoves := by
  intro sender id p serial ts s hr hrole hs hh u
  have hs' : u.cfl.start = .running := hs
  rw [execPowerReturn_taken hr hrole hh]
  refine ⟨fun k hk => ?_, fun hnone => ?_⟩
  · rw [hk, atShared_taken k _ hs']
    rfl
  · rw [hnone, atShared_unknown]
    exact congrArg _ (finish_withRx ts hr)

/-! ## POWER_GRANT and POWER_DEFER at the asker (R100, R101) -/

/-- With no request left nothing is taken. -/
theorem settleN_of_work_nil {s : State} (n : Nat) (h : s.work = []) : settleN n s = s := by
  cases n with
  | zero => rfl
  | succ n => simp [settleN, h]

/-- A request left is taken, and those after it with the fuel that is left. -/
theorem settleN_of_work_ne_nil {s : State} (n : Nat) (h : s.work ≠ []) : settleN (n + 1) s = settleN n s.takeFirst := by
  simp [settleN, h]

/-- The only request waiting is taken, and leaves the work that it causes. -/
theorem takeFirst_post {s : State} (m : Msg) (h : s.work = []) (hm : (handleMsg m s).work = []) :
    (s.post m).takeFirst = handleMsg m s := by
  have hwork : (s.post m).work = [m] := by simp [h]
  have hrest : ({ s.post m with work := [] } : State) = s := by
    rw [← h]
    rfl
  simp only [State.takeFirst, hwork, hrest, hm]
  have hjoin : joinWork [] [] = (handleMsg m s).work := hm.symm
  rw [hjoin]

/-- An event whose only request causes no other ends as that request leaves the part. -/
theorem finish_post {s : State} (m : Msg) (h : s.work = []) (hm : (handleMsg m s).work = []) :
    finish (s.post m) = finish (handleMsg m s) := by
  have hwork : (s.post m).work ≠ [] := by simp
  have hsettle : settleN settleFuel (s.post m) = settleN settleFuel (handleMsg m s) := by
    calc settleN (65535 + 1) (s.post m) = settleN 65535 (s.post m).takeFirst := settleN_of_work_ne_nil _ hwork
      _ = handleMsg m s := by rw [takeFirst_post m h hm, settleN_of_work_nil _ hm]
      _ = settleN settleFuel (handleMsg m s) := (settleN_of_work_nil _ hm).symm
  simp only [finish, hsettle]

section
variable {s : State} {k id p serial : Nat}

/-- A grant that the asker record does not hold goes back, whatever the train's record (R100). -/
theorem takeGrant_unheld {o : Route} (hno : s.holdsGrant p serial o id = false) :
    s.takeGrant p serial o id = s.returnGrant p serial o id := by
  unfold State.takeGrant
  split
  · simp [hno]
  · rfl

/-- A remote grant that is not held goes back to the owner, and its start leaves the taken starts (R100, R101). -/
theorem returnGrant_remote_unheld (hk : s.secIndex id = some k) (hno : s.holdsGrant p serial .remote id = false) :
    s.returnGrant p serial .remote id =
      (s.send (s.partnerOf k) (.powerReturn id p serial)).untake k p serial .remote := by
  simp [State.returnGrant, State.atSection, hno, hk]

/-- A grant that matches a WAITING remote ask is held and its start recorded (R100). -/
theorem askerGrant_matches (hm : s.answerMatches id p serial = true) (hroute : (s.asker p).route = .remote) :
    s.askerGrant k id p serial =
      ((s.updAsker p (fun r => { r with phase := .holding, origin := some .remote, waitEnd := none })).updTaken k
        (joinTaken { platform := p, serial := serial, demand := netDemand (s.asker p).demand (s.asker p).credit,
                     takenAt := s.runTime, origin := .remote })).post (.grant p serial .remote id) := by
  simp [State.askerGrant, hm, hroute]

theorem askerGrant_held (hm : s.answerMatches id p serial = false) (hh : s.grantHeldAlready id p serial = true) :
    s.askerGrant k id p serial = s := by
  simp [State.askerGrant, hm, hh]

theorem askerGrant_stray (hm : s.answerMatches id p serial = false) (hh : s.grantHeldAlready id p serial = false) :
    s.askerGrant k id p serial = s.post (.grant p serial .remote id) := by
  simp [State.askerGrant, hm, hh]

theorem askerDefer_matches (hm : s.answerMatches id p serial = true) :
    s.askerDefer id p serial = (s.updAsker p (fun r => { r with deferred := true })).post (.defer p serial) := by
  simp only [State.askerDefer, hm, if_true]

theorem askerDefer_stray (hm : s.answerMatches id p serial = false) : s.askerDefer id p serial = s := by
  simp only [State.askerDefer, hm, Bool.false_eq_true, if_false]

end

/-- The owner of a section is its record's partner. -/
theorem ownedBy_eq_some {s : State} {sender id k : Nat} (h : s.ownedBy sender id = some k) :
    s.secIndex id = some k ∧ s.partnerOf k = sender := by
  unfold State.ownedBy at h
  split at h
  · rename_i j hj
    split at h
    · rename_i hc
      cases h
      simp only [Bool.and_eq_true, beq_iff_eq] at hc
      exact ⟨hj, hc.2⟩
    · cases h
  · cases h

/-- A grant that is neither awaited nor held passes through the RGE, which sends it back (R100). -/
theorem finish_askerGrant_stray {s : State} {sender k id p serial : Nat} (hw : s.work = [])
    (hown : s.ownedBy sender id = some k) (hm : s.answerMatches id p serial = false)
    (hh : s.grantHeldAlready id p serial = false) :
    finish (s.askerGrant k id p serial) =
      finish ((s.send sender (.powerReturn id p serial)).untake k p serial .remote) := by
  obtain ⟨hk, hpartner⟩ := ownedBy_eq_some hown
  have hback : handleMsg (.grant p serial .remote id) s =
      (s.send sender (.powerReturn id p serial)).untake k p serial .remote := by
    rw [← hpartner, ← returnGrant_remote_unheld hk hh]
    exact takeGrant_unheld hh
  have hquiet : (handleMsg (.grant p serial .remote id) s).work = [] := by
    rw [hback]
    exact (send_work s sender _ _).1.trans hw
  rw [askerGrant_stray hm hh, finish_post _ hw hquiet, hback]

/-- Settles O39: a grant awaited, held, or stray; a POWER_DEFER awaited or stray. -/
theorem powerAnswersReachTheAsker : Obligations.PowerAnswersReachTheAsker := by
  intro sender k id p serial ts s hr hrole hs hown u r start
  have hs' : u.cfl.start = .running := hs
  refine ⟨fun hh => ?_, fun full hh => ?_⟩
  · rw [execPowerGrant_taken hr hrole hh, hown, atShared_taken k _ hs']
    refine ⟨fun hm hroute => ?_, fun hm hheld => ?_, fun hm hheld => ?_⟩
    · rw [askerGrant_matches (s := u) hm hroute]
      rfl
    · rw [askerGrant_held (s := u) hm hheld]
      exact congrArg _ (finish_withRx ts hr)
    · rw [finish_askerGrant_stray (s := u) hr.2.1 hown hm hheld]
      rfl
  · rw [execPowerDefer_taken hr hrole hh, hown, atShared_taken k _ hs']
    refine ⟨fun hm => ?_, fun hm => ?_⟩
    · rw [askerDefer_matches (s := u) hm]
    · rw [askerDefer_stray (s := u) hm]
      exact congrArg _ (finish_withRx ts hr)

end Sys2Proof.Machine
end

section
/-! PROOFS. The Announcement Unit's own events: the end of the waits at the wake timer, and the player link. -/

namespace Sys2Proof.Machine

open Sys2Proof

/-! ## Timers asked for and released -/

theorem requestCoarse_eq (s : State) (o : TimerOwner) (n : Nat) (mark : Option Nat) (periodic : Bool) :
    (s.requestCoarse o n mark periodic).1 = { s with
      tiu := (s.requestCoarse o n mark periodic).1.tiu
      work := (s.requestCoarse o n mark periodic).1.work } := by
  unfold State.requestCoarse
  split
  · split <;> rfl
  · rfl

/-- A request for a timer, granted or refused, changes the Timing Unit and what is left to take alone (R149, R155). -/
theorem requestTimer_eq (s : State) (o : TimerOwner) (n : Nat) (mark : Option Nat) (periodic : Bool) :
    (s.requestTimer o n mark periodic).1 = { s with
      tiu := (s.requestTimer o n mark periodic).1.tiu
      work := (s.requestTimer o n mark periodic).1.work } := by
  unfold State.requestTimer
  split
  · split
    · rfl
    · exact requestCoarse_eq ..
  · split
    · split
      · rfl
      · exact requestCoarse_eq ..
    · rfl

theorem requestTimer_anu (s : State) (o : TimerOwner) (n : Nat) (mark : Option Nat) (periodic : Bool) :
    (s.requestTimer o n mark periodic).1.anu = s.anu := by
  rw [requestTimer_eq]

theorem requestTimer_pins (s : State) (o : TimerOwner) (n : Nat) (mark : Option Nat) (periodic : Bool) :
    (s.requestTimer o n mark periodic).1.pins = s.pins := by
  rw [requestTimer_eq]

theorem updPairOf_pins (s : State) (i : Nat) (f : Channel → Channel) : (s.updPairOf i f).pins = s.pins := by
  unfold State.updPairOf
  split <;> rfl

theorem endExhaustion_pins (s : State) : s.endExhaustion.pins = s.pins := by
  unfold State.endExhaustion
  split <;> rfl

theorem releaseTimer_pins (s : State) (h : Handle) : (s.releaseTimer h).pins = s.pins := by
  unfold State.releaseTimer
  split
  · split
    · exact (endExhaustion_pins _).trans (updPairOf_pins ..)
    · rfl
  · rfl

theorem releaseOpt_pins (s : State) (h : Option Handle) : (s.releaseOpt h).pins = s.pins := by
  cases h with
  | none => rfl
  | some h => exact releaseTimer_pins s h

theorem releaseTimer_anu (s : State) (h : Handle) : (s.releaseTimer h).anu = s.anu := releaseOpt_anu s (some h)

/-- A release leaves the running time, so the same not-befores are reached after it. -/
theorem releaseTimer_reachedOpt (s : State) (h : Handle) (t : Option Nat) :
    (s.releaseTimer h).reachedOpt t = s.reachedOpt t := by
  have htime : (s.releaseTimer h).runTime = s.runTime := congrArg Outside.runTime (releaseTimer_outside s h)
  cases t with
  | none => rfl
  | some t => simp only [State.reachedOpt, State.reached, htime]

/-! ## The wake timer (R138) -/

/-- A queued request whose not-before is reached waits no longer (R138). -/
def State.endWait (s : State) (r : Request) : Request :=
  if r.waiting && s.reachedOpt r.notBefore then { r with waiting := false, notBefore := none } else r

/-- The queue as the wake timer's expiry leaves it, its timer gone. -/
def State.waitsEnded (s : State) (h : Handle) : State :=
  let v := s.releaseTimer h
  { v with anu := { v.anu with queue := s.anu.queue.map s.endWait, wake := none, wakeAt := none } }

/-- The expiry releases the timer held, ends the waits reached, and times the earliest not-before left. -/
theorem wakeExpired_held {s : State} {h : Handle} (hw : s.anu.wake = some h) :
    s.wakeExpired = (match earliestWait (s.anu.queue.map s.endWait) with
      | some t => (s.waitsEnded h).askWake t
      | none => s.waitsEnded h).post .select := by
  have hrel : s.releaseOpt s.anu.wake = s.releaseTimer h := by rw [hw]; rfl
  have hq : (s.releaseTimer h).anu.queue.map (fun r =>
      if r.waiting && (s.releaseTimer h).reachedOpt r.notBefore then
        { r with waiting := false, notBefore := none } else r) = s.anu.queue.map s.endWait := by
    rw [releaseTimer_anu]
    refine List.map_congr_left fun r _ => ?_
    rw [releaseTimer_reachedOpt, State.endWait]
  unfold State.wakeExpired
  simp only [hrel, hq]
  rfl

theorem execWakeTimerExpiry_taken {s : State} {h : Handle} (hr : s.Ready) (hw : s.anu.wake = some h)
    (hdue : s.expired h = true) : exec .wakeTimerExpiry s = .next (finish s.wakeExpired) :=
  onEvent_taken s _ State.wakeExpired hr.1 (by rw [hw]; exact hdue)

/-- Settles O46: the release leaves the queue and the running time by which the waits are reached. -/
theorem wakeTimerEndsWaits : Obligations.WakeTimerEndsWaits := by
  intro h s hr hw hdue v q u
  rw [execWakeTimerExpiry_taken hr hw hdue, wakeExpired_held hw]
  rfl

/-! ## The phrase that is sent (R142) -/

theorem compose_pins (s : State) : s.compose.pins = s.pins := by
  unfold State.compose
  split
  · rfl
  · split <;> rfl

/-- The composer changes the playing request and the FIFO alone (R139). -/
theorem compose_anu (s : State) :
    s.compose.anu = { s.anu with playing := s.compose.anu.playing, fifo := s.compose.anu.fifo } := by
  unfold State.compose
  split
  · rfl
  · split <;> rfl

theorem refill_pins (s : State) : s.refill.pins = s.pins := by
  unfold State.refill
  split
  · exact compose_pins s
  · rfl

theorem refill_anu (s : State) :
    s.refill.anu = { s.anu with playing := s.refill.anu.playing, fifo := s.refill.anu.fifo } := by
  unfold State.refill
  split
  · exact compose_anu s
  · rfl

theorem loadPlayer_pins (s : State) (n : Nat) : (s.loadPlayer n).pins = s.pins :=
  (requestTimer_pins ..).trans (releaseOpt_pins ..)

/-- The load, granted or refused, changes the player timer and its mark in the unit alone (R142). -/
theorem loadPlayer_anu (s : State) (n : Nat) :
    (s.loadPlayer n).anu =
      { s.anu with playerTimer := (s.loadPlayer n).anu.playerTimer, untimed := (s.loadPlayer n).anu.untimed } := by
  have hload : ((s.releaseOpt s.anu.playerTimer).requestTimer .player n).1.anu = s.anu :=
    (requestTimer_anu ..).trans (releaseOpt_anu ..)
  rw [← hload]
  rfl

theorem sendPhrase_plTx (s : State) (r : Request) (p : Phrase) :
    (s.sendPhrase r p).pins.plTx = emitPlay p.code r.zones := by
  rw [State.sendPhrase, loadPlayer_pins, refill_pins]

theorem sendPhrase_outstanding (s : State) (r : Request) (p : Phrase) :
    (s.sendPhrase r p).anu.outstanding = some p := by
  rw [State.sendPhrase, loadPlayer_anu, refill_anu]

theorem sendPhrase_player (s : State) (r : Request) (p : Phrase) : (s.sendPhrase r p).anu.player = .awaitFall := by
  rw [State.sendPhrase, loadPlayer_anu, refill_anu]

/-- In IDLE with READY high the FIFO head is sent. -/
theorem pump_sends {s : State} {r : Request} {p : Phrase} {ps : List Phrase} (hplay : s.anu.playing = some r)
    (hfifo : s.anu.fifo = p :: ps) (hidle : s.anu.player = .idle) (hready : s.pins.ready = true) :
    s.pump = s.sendPhrase r p := by
  simp only [State.pump, hplay, hfifo, hidle, hready, if_true]

/-! ## READY (Table 7-5) -/

/-- READY at a level, and nothing else changed. -/
def State.withReady (s : State) (level : Bool) : State := { s with pins := { s.pins with ready := level } }

/-- The player link in a state of Table 7-5, and nothing else changed. -/
def State.withPlayer (s : State) (x : PlayerState) : State := { s with anu := { s.anu with player := x } }

theorem execReadyRise_low {s : State} (hlow : s.pins.ready = false) :
    exec .readyRise s = .next (finish s.readyRises) := by
  simp [exec, execReadyRise, hlow]

theorem execReadyFall_high {s : State} (hhigh : s.pins.ready = true) :
    exec .readyFall s = .next (finish s.readyFalls) := by
  simp [exec, execReadyFall, hhigh]

/-- The level of READY alone is the whole event where nothing was left to take. -/
theorem finish_withReady {s : State} (level : Bool) (hq : s.Quiet) : finish (s.withReady level) = s.withReady level :=
  finish_quiet (s.withReady level) hq

theorem readyRises_idle {s : State} (hx : s.anu.player = .idle) : s.readyRises = (s.withReady true).pump := by
  simp only [State.readyRises, State.withReady, hx]

theorem readyRises_awaitFall {s : State} (hx : s.anu.player = .awaitFall) : s.readyRises = s.withReady true := by
  simp only [State.readyRises, State.withReady, hx]

theorem readyRises_awaitRise {s : State} (hx : s.anu.player = .awaitRise) :
    s.readyRises = (s.withReady true).phraseDone .idle := by
  simp only [State.readyRises, State.withReady, hx]

theorem readyRises_mute {s : State} (hx : s.anu.player = .mute) :
    s.readyRises = (((s.withReady true).withPlayer .idle).post (.condEnd .playerFault Loc.none)).post .pump := by
  simp only [State.readyRises, State.withReady, State.withPlayer, hx]

theorem readyFalls_awaitFall {s : State} (hx : s.anu.player = .awaitFall) :
    s.readyFalls = ((s.withReady false).withPlayer .awaitRise).reloadPlayer s.cfg.announce.phraseTimeout := by
  simp only [State.readyFalls, State.withReady, State.withPlayer, hx]

theorem readyFalls_other {s : State} (hx : s.anu.player ≠ .awaitFall) : s.readyFalls = s.withReady false := by
  cases hp : s.anu.player with
  | awaitFall => exact absurd hp hx
  | idle | awaitRise | mute => simp only [State.readyFalls, State.withReady, hp]

theorem reloadPlayer_timed {s : State} {h : Handle} (n : Nat) (ht : s.anu.playerTimer = some h) :
    s.reloadPlayer n = s.reloadTimer h n := by
  simp only [State.reloadPlayer, ht]

theorem reloadPlayer_untimed {s : State} (n : Nat) (ht : s.anu.playerTimer = none) : s.reloadPlayer n = s := by
  simp only [State.reloadPlayer, ht]

/-! ## The player timer (Table 7-5, R143) -/

theorem execPlayerTimerExpiry_taken {s : State} (hr : s.Ready) (hdue : s.expiredOpt s.anu.playerTimer = true) :
    exec .playerTimerExpiry s = .next (finish s.playerExpired) :=
  onEvent_taken s _ State.playerExpired hr.1 hdue

theorem playerExpired_idle {s : State} (hx : s.anu.player = .idle) :
    s.playerExpired = ((s.releasePlayer.withPlayer .mute).playerMute).post .pump := by
  simp only [State.playerExpired, State.withPlayer, hx]

theorem playerExpired_awaitFall {s : State} (hx : s.anu.player = .awaitFall) :
    s.playerExpired = s.phraseDone .idle := by
  simp only [State.playerExpired, hx]

theorem playerExpired_awaitRise {s : State} (hx : s.anu.player = .awaitRise) :
    s.playerExpired = (s.stepMuted.playerMute).phraseDone .mute := by
  simp only [State.playerExpired, hx]

/-- A rise of READY in each state of the link; in IDLE where the playing request has a phrase in the FIFO. -/
theorem readyRise_moves {s : State} (hq : s.Quiet) (hlow : s.pins.ready = false) :
    let u := s.withReady true
    (s.anu.player = .awaitFall → exec .readyRise s = .next u) ∧
    (s.anu.player = .awaitRise → exec .readyRise s = .next (finish (u.phraseDone .idle))) ∧
    (s.anu.player = .mute → exec .readyRise s = .next (finish
      (((u.withPlayer .idle).post (.condEnd .playerFault Loc.none)).post .pump))) ∧
    (s.anu.player = .idle → ∀ r p ps, s.anu.playing = some r → s.anu.fifo = p :: ps →
      exec .readyRise s = .next (finish (u.sendPhrase r p))) := by
  intro u
  rw [execReadyRise_low hlow]
  refine ⟨fun hx => ?_, fun hx => ?_, fun hx => ?_, fun hx r p ps hplay hfifo => ?_⟩
  · rw [readyRises_awaitFall hx, finish_withReady true hq]
  · rw [readyRises_awaitRise hx]
  · rw [readyRises_mute hx]
  · rw [readyRises_idle hx, pump_sends (s := s.withReady true) hplay hfifo hx rfl]

/-- A fall of READY starts the phrase in AWAIT_FALL, and is followed alone in every other state. -/
theorem readyFall_moves {s : State} (hq : s.Quiet) (hhigh : s.pins.ready = true) :
    let u := s.withReady false
    let v := u.withPlayer .awaitRise
    (s.anu.player = .awaitFall → s.anu.playerTimer = none → exec .readyFall s = .next v) ∧
    (∀ h, s.anu.player = .awaitFall → s.anu.playerTimer = some h →
      exec .readyFall s = .next (finish (v.reloadTimer h s.cfg.announce.phraseTimeout))) ∧
    (s.anu.player ≠ .awaitFall → exec .readyFall s = .next u) := by
  intro u v
  have hv : v.Quiet := hq
  rw [execReadyFall_high hhigh]
  refine ⟨fun hx ht => ?_, fun h hx ht => ?_, fun hx => ?_⟩
  · rw [readyFalls_awaitFall hx, reloadPlayer_untimed (s := v) _ ht, finish_quiet v hv]
  · rw [readyFalls_awaitFall hx, reloadPlayer_timed (s := v) _ ht]
  · rw [readyFalls_other hx, finish_withReady false hq]

/-- Settles O47: Table 7-5, row by row; a sent phrase is then read off what its sending leaves alone. -/
theorem playerLinkMoves : Obligations.PlayerLinkMoves := by
  refine ⟨fun s hq hlow => ?_, fun s hq hhigh => readyFall_moves hq hhigh, fun s hr hdue => ?_⟩
  · obtain ⟨hfall, hrise, hmute, hsend⟩ := readyRise_moves hq hlow
    exact ⟨hfall, hrise, hmute, fun hx r p ps hplay hfifo => ⟨(s.withReady true).sendPhrase r p,
      hsend hx r p ps hplay hfifo, sendPhrase_plTx .., sendPhrase_outstanding .., sendPhrase_player ..⟩⟩
  · rw [execPlayerTimerExpiry_taken hr hdue]
    refine ⟨fun hx => ?_, fun hx => ?_, fun hx => ?_⟩
    · rw [playerExpired_idle hx]
      rfl
    · rw [playerExpired_awaitFall hx]
      rfl
    · rw [playerExpired_awaitRise hx]
      rfl

end Sys2Proof.Machine
end

section
/-! PROOFS. What each command leaves of the parts of the state that only the commands named may change. -/

namespace Sys2Proof.Machine

open Sys2Proof

/-! ## The parts of the outside -/

/-- The parts that CommandsLeaveTheRest names, read off what a command moves of the outside part. -/
theorem parts_of_outside {s t : State} {rm : Nat} {dk : Dck} {rx : List Received} {rp : List Report}
    {tr : List TrackDyn} {im : List PointVal} {ck : Option Nat} {rd : Bool} {tk : List Bool} {rt : Nat}
    (h : t.outside = { s.outside with
        start := t.cfl.start, runTime := rt, refMoment := rm, dck := dk, rx := rx, reports := rp, tracks := tr
        image := im, clock := ck, ready := rd, trk := tk } ∧
      (s.cfl.start ≠ .rebuild → t.cfl.start = s.cfl.start)) :
    t.pending = s.pending ∧ t.cfg = s.cfg ∧ t.runTime = rt ∧ t.tiu.clock = ck ∧ t.slc.image = im ∧
      t.slc.reports = rp ∧ t.slc.tracks = tr ∧ (s.cfl.start ≠ .rebuild → t.cfl.start = s.cfl.start) ∧ t.lbc.rx = rx := by
  obtain ⟨ho, hs⟩ := h
  exact ⟨congrArg Outside.pending ho, congrArg Outside.cfg ho, congrArg Outside.runTime ho,
    congrArg Outside.clock ho, congrArg Outside.image ho, congrArg Outside.reports ho, congrArg Outside.tracks ho, hs,
    congrArg Outside.rx ho⟩

/-- What a command leaves that moves neither the constants nor the clock, with what it may do to the field image, the
report FIFO, the track filters and the receive queue. -/
abbrev Leaves (s t : State) (image reports tracks rx : Prop) : Prop :=
  t.pending = s.pending ∧ t.cfg = s.cfg ∧ t.runTime = s.runTime ∧ t.tiu.clock = s.tiu.clock ∧ image ∧ reports ∧
    tracks ∧ (s.cfl.start ≠ .rebuild → t.cfl.start = s.cfl.start) ∧ rx

theorem finish_clock (s : State) : (finish s).tiu.clock = s.tiu.clock := congrArg Outside.clock (finish_outside s)

theorem finish_image (s : State) : (finish s).slc.image = s.slc.image := congrArg Outside.image (finish_outside s)

theorem finish_cfg (s : State) : (finish s).cfg = s.cfg := congrArg Outside.cfg (finish_outside s)

theorem finish_runTime (s : State) : (finish s).runTime = s.runTime := congrArg Outside.runTime (finish_outside s)

theorem finish_reports (s : State) : (finish s).slc.reports = s.slc.reports :=
  congrArg Outside.reports (finish_outside s)

theorem finish_rx (s : State) : (finish s).lbc.rx = s.lbc.rx := congrArg Outside.rx (finish_outside s)

/-! ## Telegrams taken from the head of the receive queue -/

/-- What taking a telegram can do: nothing; or the head goes, is forwarded, and its block takes it when it is of the
kind wanted and for this node. -/
theorem onReceived_cases (s : State) (want : Body → Bool) (f : Received → State → State) :
    s.onReceived want f = s ∨ ∃ (r : Received) (v : State), want r.tg.body = true ∧
      v.outside = { s.outside with rx := s.lbc.rx.drop 1 } ∧ (s.onReceived want f = v ∨ s.onReceived want f = f r v) := by
  unfold State.onReceived State.takeTelegram
  split
  · exact .inl rfl
  · rename_i r _ _
    by_cases hw : want r.tg.body = true
    · refine .inr ⟨r, s.popRx.forward r, hw, forward_outside .., ?_⟩
      by_cases hme : (s.popRx.forward r).forMe r.tg = true <;> simp [hw, hme]
    · exact .inl (if_neg hw)

/-- A telegram's command preserves what taking the head, its block's part and the end of an event preserve. -/
theorem onReceivedKind_preserves (P : State → Prop) {s t : State} {want : Body → Bool} {f : Received → State → State}
    (hs : P s) (hpop : ∀ v : State, v.outside = { s.outside with rx := s.lbc.rx.drop 1 } → P v)
    (hend : ∀ u, P u → P (finish u)) (hf : ∀ r u, want r.tg.body = true → P u → P (f r u))
    (h : onReceivedKind s want f = .next t) : P t := by
  rcases onEvent_cases s t _ _ h with h | ⟨_, _, h⟩
  · exact h ▸ hs
  · rw [h]
    refine hend _ ?_
    rcases onReceived_cases s want f with h | ⟨r, v, hw, hv, h | h⟩ <;> rw [h]
    · exact hs
    · exact hpop v hv
    · exact hf r v hw (hpop v hv)

/-- Taking a telegram takes the head from the receive queue, or nothing. -/
theorem onReceivedKind_rx {s t : State} {want : Body → Bool} {f : Received → State → State}
    (hf : ∀ r u, (f r u).lbc.rx = u.lbc.rx) (h : onReceivedKind s want f = .next t) :
    t.lbc.rx = s.lbc.rx ∨ t.lbc.rx = s.lbc.rx.drop 1 := by
  rcases onEvent_cases s t _ _ h with h | ⟨_, _, h⟩
  · exact .inl (congrArg (fun u : State => u.lbc.rx) h)
  · rw [h, finish_rx]
    rcases onReceived_cases s want f with h | ⟨r, v, _, hv, h | h⟩
    · exact .inl (by rw [h])
    · exact .inr (by rw [h]; exact congrArg Outside.rx hv)
    · exact .inr (by rw [h, hf]; exact congrArg Outside.rx hv)

/-- A telegram's command moves the receive queue alone, whose head it may take, when its block's part moves nothing. -/
theorem onKind_leaves {s t : State} {want : Body → Bool} {f : Telegram → State → State}
    (hf : ∀ x u, (f x u).outside = u.outside) (h : onKind s want f = .next t) :
    Leaves s t (t.slc.image = s.slc.image) (t.slc.reports = s.slc.reports) (t.slc.tracks = s.slc.tracks)
      (t.lbc.rx = s.lbc.rx ∨ t.lbc.rx = s.lbc.rx.drop 1) :=
  have ⟨hp, hc, hr, hk, hi, hn, ht, hs, _⟩ := parts_of_outside (onKind_outside s t want f hf h)
  ⟨hp, hc, hr, hk, hi, hn, ht, hs, onReceivedKind_rx (fun r u => congrArg Outside.rx (hf r.tg u)) h⟩

/-! ## Directives (R189) -/

/-- Only DAY_START has an owner that moves the clock, and it sets it. -/
theorem carryOut_clock (s : State) (n : Nat) (d : Directive) :
    (s.carryOut n d).1.tiu.clock = s.tiu.clock ∨ ∃ x, d = .dayStart x ∧ (s.carryOut n d).1.tiu.clock = some x := by
  cases d with
  | ackIncident i => exact .inl (congrArg Outside.clock (ackDirective_outside s n i))
  | holdTrain r p => exact .inl (congrArg Outside.clock (holdDirective_outside s r p true))
  | releaseTrain r p => exact .inl (congrArg Outside.clock (holdDirective_outside s r p false))
  | announce a => exact .inl (congrArg Outside.clock (announceDirective_outside s n a))
  | cancelAnnounce x l z => exact .inl (congrArg Outside.clock (cancelDirective_outside s x l z))
  | declareIncident x => exact .inl (congrArg Outside.clock (declareDirective_outside s x))
  | clearIncident i => exact .inl (congrArg Outside.clock (clearDirective_outside s i))
  | withdrawRun r p => exact .inl (congrArg Outside.clock (withdrawDirective_outside s r p))
  | insertRun a => exact .inl (congrArg Outside.clock (insertDirective_outside s a))
  | setMode m p => exact .inl (congrArg Outside.clock (setModeDirective_outside s m p))
  | isolateSection i => exact .inl (congrArg Outside.clock (isolateDirective_outside s i))
  | restoreSection i => exact .inl (congrArg Outside.clock (restoreDirective_outside s i))
  | clearOverflow => exact .inl (congrArg Outside.clock (overflowDirective_outside s))
  | fieldQuery | restartNode | unknown => exact .inl rfl
  | dayStart x =>
    simp only [State.carryOut, State.dayDirective]
    split
    · exact .inl rfl
    · exact .inr ⟨x, rfl, rfl⟩

theorem clampDirective_eq_dayStart {level x : Nat} {d : Directive} (h : clampDirective level d = .dayStart x) :
    d = .dayStart x := by
  cases d with
  | dayStart y => exact h
  | _ => exact absurd h (by simp [clampDirective])

theorem sendAnswer_clock (s : State) (n : Nat) (b : AnswerBody) (note : TxNote) :
    (s.sendAnswer n b note).tiu.clock = s.tiu.clock := congrArg Outside.clock (sendAnswer_outside s n b note)

theorem ownerStep_clock (s : State) (i n k : Nat) (d : Directive) :
    (s.ownerStep i n k d).tiu.clock = (s.carryOut n d).1.tiu.clock :=
  calc (s.ownerStep i n k d).tiu.clock
      = (((s.carryOut n d).1.storeAnswer i _).orderRestart d).1.tiu.clock := sendAnswer_clock ..
    _ = ((s.carryOut n d).1.storeAnswer i _).tiu.clock := congrArg Outside.clock (orderRestart_outside ..)

theorem refuseStep_clock (s : State) (i n k : Nat) (d : Directive) (r : AnswerResult) :
    (s.refuseStep i n k d r).tiu.clock = s.tiu.clock := sendAnswer_clock ..

theorem checkDirective_clock (s : State) (i level n k : Nat) (d : Directive) :
    (s.checkDirective i level n k d).tiu.clock = s.tiu.clock ∨
      ∃ x, d = .dayStart x ∧ (s.checkDirective i level n k d).tiu.clock = some x := by
  unfold State.checkDirective
  split
  · exact .inl (refuseStep_clock ..)
  split
  · exact .inl (refuseStep_clock ..)
  split
  · exact .inl (refuseStep_clock ..)
  · rw [ownerStep_clock]
    exact (carryOut_clock s n (clampDirective level d)).imp_right
      fun ⟨x, hd, hx⟩ => ⟨x, clampDirective_eq_dayStart hd, hx⟩

/-- A directive taken leaves the clock, or is a DAY_START that sets it. -/
theorem takeDirective_clock (s : State) (n k : Nat) (d : Directive) :
    (s.takeDirective n k d).tiu.clock = s.tiu.clock ∨
      ∃ x, d = .dayStart x ∧ (s.takeDirective n k d).tiu.clock = some x := by
  unfold State.takeDirective
  split
  · exact .inl rfl
  · exact .inl rfl
  · exact .inl rfl
  · exact .inl (sendAnswer_clock ..)
  · split
    · exact .inl (sendAnswer_clock ..)
    · split
      · exact .inl (sendAnswer_clock ..)
      · split
        · exact checkDirective_clock ..
        · exact .inl rfl

/-- A DIRECTIVE takes the head from the receive queue, or nothing. -/
theorem onDirectiveKind_rx {s t : State} {want : Directive → Bool} (h : onDirectiveKind s want = .next t) :
    t.lbc.rx = s.lbc.rx ∨ t.lbc.rx = s.lbc.rx.drop 1 := by
  refine onReceivedKind_rx (fun r u => ?_) h
  dsimp only
  split
  · exact congrArg Base.rx (takeDirective_base ..)
  · rfl

/-- A DIRECTIVE that is no DAY_START leaves the clock. -/
theorem onDirectiveKind_clock {s t : State} {want : Directive → Bool} (hw : ∀ x, want (.dayStart x) = false)
    (h : onDirectiveKind s want = .next t) : t.tiu.clock = s.tiu.clock := by
  refine onReceivedKind_preserves (·.tiu.clock = s.tiu.clock) rfl (fun v hv => congrArg Outside.clock hv)
    (fun u hu => (finish_clock u).trans hu) (fun r u hwant hu => ?_) h
  dsimp only
  split
  · rename_i k d hb
    rcases takeDirective_clock u r.tg.sender k d with hk | ⟨x, hx, _⟩
    · exact hk.trans hu
    · rw [hb, hx] at hwant
      exact absurd hwant (by simp [isDirective, hw])
  · exact hu

/-- A DIRECTIVE that is no DAY_START moves the receive queue alone of the parts. -/
theorem onDirectiveKind_leaves {s t : State} {want : Directive → Bool} (hw : ∀ x, want (.dayStart x) = false)
    (h : onDirectiveKind s want = .next t) :
    Leaves s t (t.slc.image = s.slc.image) (t.slc.reports = s.slc.reports) (t.slc.tracks = s.slc.tracks)
      (t.lbc.rx = s.lbc.rx ∨ t.lbc.rx = s.lbc.rx.drop 1) :=
  have ⟨hp, hc, hr, _, hi, hn, ht, hs, _⟩ := parts_of_outside (onDirectiveKind_outside s t want h)
  ⟨hp, hc, hr, onDirectiveKind_clock hw h, hi, hn, ht, hs, onDirectiveKind_rx h⟩

/-! ## Reports taken from the head of the report FIFO -/

/-- A report's command preserves what taking the head, its block's part and the end of an event preserve. -/
theorem onReport_preserves (P : State → Prop) {s t : State} {want : Report → Bool} {f : Report → State → State}
    (hs : P s) (hpop : ∀ rs, P { s with slc := { s.slc with reports := rs } }) (hend : ∀ u, P u → P (finish u))
    (hf : ∀ r u, want r = true → P u → P (f r u)) (h : onReport s want f = .next t) : P t := by
  rcases onEvent_cases s t _ _ h with h | ⟨_, _, h⟩
  · exact h ▸ hs
  · rw [h]
    refine hend _ ?_
    unfold State.takeReport
    split
    · exact hs
    · split
      · rename_i r rs _ hw
        exact hf r _ hw (hpop rs)
      · exact hs

/-- A report's command keeps the clock when its block's part does. -/
theorem onReport_clock {s t : State} {want : Report → Bool} {f : Report → State → State}
    (hf : ∀ r u, want r = true → (f r u).tiu.clock = u.tiu.clock) (h : onReport s want f = .next t) :
    t.tiu.clock = s.tiu.clock :=
  onReport_preserves (·.tiu.clock = s.tiu.clock) rfl (fun _ => rfl) (fun u hu => (finish_clock u).trans hu)
    (fun r u hw hu => (hf r u hw).trans hu) h

/-- A report's command keeps the field image when its block's part does. -/
theorem onReport_image {s t : State} {want : Report → Bool} {f : Report → State → State}
    (hf : ∀ r u, (f r u).slc.image = u.slc.image) (h : onReport s want f = .next t) : t.slc.image = s.slc.image :=
  onReport_preserves (·.slc.image = s.slc.image) rfl (fun _ => rfl) (fun u hu => (finish_image u).trans hu)
    (fun r u _ hu => (hf r u).trans hu) h

/-- An order of the plan leaves the outside part. -/
theorem takeOrder_outside (s : State) (r : Report) (hr : ∀ n k d, r ≠ .directive n k d) :
    (s.takeOrder r).outside = s.outside := by
  cases r with
  | directive n k d => exact absurd rfl (hr n k d)
  | point | sweepBegin | sweepEnd => rfl
  | planClear =>
    simp only [State.takeOrder]
    split
    · exact localResult_outside ..
    · exact localResult_outside { s with ttu := { s.ttu with launch := [] } } ..
  | planEntry e =>
    simp only [State.takeOrder]
    split
    · exact localResult_outside ..
    split
    · exact localResult_outside ..
    · exact (localResult_outside ..).trans (appendEntry_outside ..)
  | planSend n k =>
    simp only [State.takeOrder]
    split
    · exact localResult_outside ..
    split
    · exact localResult_outside ..
    · exact (localResult_outside ..).trans (handStage_outside ..)

/-- A workstation's order that is no DIRECTIVE leaves the outside part. -/
theorem workstation_outside (s : State) (r : Report) (hr : ∀ n k d, r ≠ .directive n k d) :
    (s.workstation r).outside = s.outside := by
  unfold State.workstation
  split
  · exact takeOrder_outside s r hr
  · exact localResult_outside ..

/-- A workstation's order leaves the clock, or sets it. -/
theorem workstation_clock (s : State) (r : Report) :
    (s.workstation r).tiu.clock = s.tiu.clock ∨ ∃ x, (s.workstation r).tiu.clock = some x := by
  cases r with
  | directive n k d =>
    simp only [State.workstation, State.takeOrder]
    split
    · split
      · exact .inl (congrArg Outside.clock (localResult_outside ..))
      split
      · exact (takeDirective_clock ..).imp_right fun ⟨x, _, hx⟩ => ⟨x, hx⟩
      · exact .inl (congrArg Outside.clock (send_outside ..))
    · exact .inl (congrArg Outside.clock (localResult_outside ..))
  | _ => exact .inl (congrArg Outside.clock (workstation_outside s _ (by simp)))

/-- No order of the workstation moves the field image. -/
theorem workstation_image (s : State) (r : Report) : (s.workstation r).slc.image = s.slc.image := by
  cases r with
  | directive n k d =>
    simp only [State.workstation, State.takeOrder]
    split
    · split
      · exact congrArg Outside.image (localResult_outside ..)
      split
      · exact congrArg Outside.image (takeDirective_moves ..)
      · exact congrArg Outside.image (send_outside ..)
    · exact congrArg Outside.image (localResult_outside ..)
  | _ => exact congrArg Outside.image (workstation_outside s _ (by simp))

theorem takePoint_clock (s : State) (n v : Nat) : (s.takePoint n v).tiu.clock = s.tiu.clock := by
  simp only [State.takePoint]
  split
  · rfl
  split
  · split
    · exact congrArg Outside.clock (breakerReport_outside ..)
    · exact congrArg Outside.clock (pointReport_outside ..)
    · exact congrArg Outside.clock (pointReport_outside ..)
    · exact congrArg Outside.clock (pointReport_outside ..)
    · rfl
  · rfl

/-- POINT leaves the clock. -/
theorem execPoint_clock {s t : State} (h : execPoint s = .next t) : t.tiu.clock = s.tiu.clock := by
  refine onReport_clock (fun r u _ => ?_) h
  split
  · exact takePoint_clock ..
  · rfl

/-- A plan order moves the report FIFO alone. -/
theorem onPlanOrder_leaves {s t : State} {want : Report → Bool} (hw : ∀ n k d, want (.directive n k d) = false)
    (h : onReport s want (fun r u => u.workstation r) = .next t)
    (ho : t.outside = { s.outside with
        start := t.cfl.start, reports := t.slc.reports, dck := t.dck, clock := t.tiu.clock, image := t.slc.image } ∧
      (s.cfl.start ≠ .rebuild → t.cfl.start = s.cfl.start)) :
    Leaves s t (t.slc.image = s.slc.image) True (t.slc.tracks = s.slc.tracks) (t.lbc.rx = s.lbc.rx) := by
  obtain ⟨hp, hc, hr, _, _, _, ht, hs, hx⟩ := parts_of_outside ho
  have hk : t.tiu.clock = s.tiu.clock :=
    onReport_clock (fun r u hwant => congrArg Outside.clock
      (workstation_outside u r fun n k d e => by simp [e, hw] at hwant)) h
  have hi : t.slc.image = s.slc.image := onReport_image (fun r u => workstation_image u r) h
  exact ⟨hp, hc, hr, hk, hi, trivial, ht, hs, hx⟩

/-! ## Starts -/

theorem startFilters_outside (s : State) : s.startFilters.outside =
    { s.outside with tracks := s.startFilters.slc.tracks, filtersOn := s.startFilters.slc.filtersOn } := by
  unfold State.startFilters
  split <;> rfl

/-- The entry to LISTEN starts the filters, and empties a console's field image. -/
theorem enterListen_outside (s : State) : s.enterListen.outside = { s.outside with
    start := .listen
    listenAt := some s.runTime
    image := if s.isStation then s.slc.image else noPoints
    tracks := s.enterListen.slc.tracks
    filtersOn := s.enterListen.slc.filtersOn } := by
  let u := s.beginListen.initWatched.startStatusPeriod
  have hbegin : u.outside = { s.outside with
      start := .listen, listenAt := some s.runTime, image := if s.isStation then s.slc.image else noPoints } :=
    (startStatusPeriod_outside _).trans (initWatched_outside _)
  have hend : s.enterListen.outside = u.startFilters.outside := by
    simp only [State.enterListen, raiseLostLink_outside, firstPointReports_outside, firstBreakerReports_outside,
      startGates_outside, requestSweep_outside, authoritiesOff_outside, u]
  generalize s.enterListen = v at hend ⊢
  have htracks : v.slc.tracks = u.startFilters.slc.tracks := congrArg Outside.tracks hend
  have hfilters : v.slc.filtersOn = u.startFilters.slc.filtersOn := congrArg Outside.filtersOn hend
  rw [hend, htracks, hfilters, startFilters_outside, hbegin]

/-- WARM_START keeps the constants and the clock (R196). -/
theorem execWarmStart_keeps {s t : State} (h : execWarmStart s = .next t) :
    t.pending = s.pending ∧ t.cfg = s.cfg ∧ t.tiu.clock = s.tiu.clock := by
  rcases onEvent_cases s t _ _ h with h | ⟨_, _, h⟩
  · rw [h]
    exact ⟨rfl, rfl, rfl⟩
  · have ho := enterListen_outside s.warmState
    rw [h, finish_pending, finish_cfg, finish_clock]
    generalize s.warmState.enterListen = v at ho ⊢
    exact ⟨congrArg Outside.pending ho, congrArg Outside.cfg ho, congrArg Outside.clock ho⟩

/-- IMAGE_CHECKED moves the constants, the start state and the filters; the field image it may empty at a console (R190,
R192). -/
theorem execImageChecked_keeps {image : Bytes} {s t : State} (h : execImageChecked image s = .next t) :
    t.pending = s.pending ∧ t.runTime = s.runTime ∧ t.tiu.clock = s.tiu.clock ∧
      (t.slc.image = s.slc.image ∨ t.cfg.role = .console ∧ t.slc.image = noPoints) ∧
      t.slc.reports = s.slc.reports ∧ t.lbc.rx = s.lbc.rx := by
  rcases onEvent_cases s t _ _ h with h | ⟨_, _, h⟩
  · rw [h]
    exact ⟨rfl, rfl, rfl, .inl rfl, rfl, rfl⟩
  · rw [h, finish_pending, finish_runTime, finish_clock, finish_image, finish_cfg, finish_reports, finish_rx]
    split
    · rename_i c _
      have ho := enterListen_outside { s with cfg := c }
      generalize State.enterListen { s with cfg := c } = v at ho ⊢
      refine ⟨congrArg Outside.pending ho, congrArg Outside.runTime ho, congrArg Outside.clock ho, ?_,
        congrArg Outside.reports ho, congrArg Outside.rx ho⟩
      have himage := congrArg Outside.image ho
      cases hrole : c.role with
      | station => exact .inl (himage.trans (if_pos (by simp [State.isStation, hrole])))
      | console =>
        exact .inr ⟨(congrArg (fun o => o.cfg.role) ho).trans hrole,
          himage.trans (if_neg (by simp [State.isStation, hrole]))⟩
    · exact ⟨rfl, rfl, rfl, .inl rfl, rfl, rfl⟩

/-- LISTEN_END moves the start state alone. -/
theorem execListenEnd_outside {s t : State} (h : execListenEnd s = .next t) :
    t.outside = { s.outside with start := t.cfl.start } := by
  rcases onEvent_cases s t _ _ h with h | ⟨_, _, h⟩
  · rw [h]
    rfl
  · rw [h, finish_outside, enterRebuild_outside]

/-! ## The receive queue's tail (R169) -/

/-- A telegram received joins the tail of the receive queue, or is lost. -/
theorem receive_rx (s : State) (m : Nat) (bs : Bytes) :
    (s.receive m bs).lbc.rx = s.lbc.rx ∨ ∃ r : Received, (s.receive m bs).lbc.rx = s.lbc.rx ++ [r] := by
  unfold State.receive State.joinRx
  dsimp only
  split
  · split
    · split
      · exact .inl rfl
      split
      · split
        · exact .inr ⟨_, rfl⟩
        · exact .inl rfl
      · exact .inl rfl
    · exact .inl rfl
  · exact .inl rfl

theorem execTelegramReceived_rx {cycle : Nat} {bs : Bytes} {s t : State}
    (h : execTelegramReceived cycle bs s = .next t) :
    t.lbc.rx = s.lbc.rx ∨ ∃ r : Received, t.lbc.rx = s.lbc.rx ++ [r] := by
  unfold execTelegramReceived onCycle at h
  rcases onEvent_cases s t _ _ h with h | ⟨_, _, h⟩
  · exact .inl (by rw [h])
  · rw [h, finish_rx]
    unfold State.atCycle
    split
    · split
      · rename_i m _ _
        exact receive_rx { s with refMoment := m } m bs
      · exact .inl rfl
    · exact .inl rfl

/-! ## Every command -/

/-- An event of a track input moves its filters alone. -/
theorem edge_leaves {s t : State} {rm : Nat} {tr : List TrackDyn} {tk : List Bool}
    (h : t.outside = { s.outside with start := t.cfl.start, refMoment := rm, tracks := tr, trk := tk } ∧
      (s.cfl.start ≠ .rebuild → t.cfl.start = s.cfl.start)) :
    Leaves s t (t.slc.image = s.slc.image) (t.slc.reports = s.slc.reports) True (t.lbc.rx = s.lbc.rx) :=
  have ⟨hp, hc, hr, hk, hi, hn, _, hs, hx⟩ := parts_of_outside h
  ⟨hp, hc, hr, hk, hi, hn, trivial, hs, hx⟩

/-- A frame of the station link moves the report FIFO alone. -/
theorem report_leaves {s t : State} {rp : List Report}
    (h : t.outside = { s.outside with start := t.cfl.start, reports := rp } ∧
      (s.cfl.start ≠ .rebuild → t.cfl.start = s.cfl.start)) :
    Leaves s t (t.slc.image = s.slc.image) True (t.slc.tracks = s.slc.tracks) (t.lbc.rx = s.lbc.rx) :=
  have ⟨hp, hc, hr, hk, hi, _, ht, hs, hx⟩ := parts_of_outside h
  ⟨hp, hc, hr, hk, hi, trivial, ht, hs, hx⟩

/-- The end of the station link moves the field image alone. -/
theorem linkLost_leaves {s t : State} {im : List PointVal}
    (h : t.outside = { s.outside with start := t.cfl.start, image := im } ∧
      (s.cfl.start ≠ .rebuild → t.cfl.start = s.cfl.start)) :
    Leaves s t True (t.slc.reports = s.slc.reports) (t.slc.tracks = s.slc.tracks) (t.lbc.rx = s.lbc.rx) :=
  have ⟨hp, hc, hr, hk, _, hn, ht, hs, hx⟩ := parts_of_outside h
  ⟨hp, hc, hr, hk, trivial, hn, ht, hs, hx⟩

/-- Settles O4, command by command: each leaves the outside part but for what its shape moves. -/
theorem commandsLeaveTheRest : Obligations.CommandsLeaveTheRest := by
  intro c s t h
  cases c with
  | powerOn =>
    cases h
    exact ⟨rfl, trivial, trivial, trivial, trivial, trivial, trivial, trivial, trivial⟩
  | resetAssert | resetRelease =>
    cases h
    refine ⟨?_, trivial, trivial, trivial, trivial, trivial, trivial, trivial, trivial⟩
    split <;> rfl
  | imageChecked image =>
    obtain ⟨hp, hr, hk, hi, hn, hx⟩ := execImageChecked_keeps h
    exact ⟨hp, trivial, hr, hk, hi, hn, trivial, trivial, hx⟩
  | warmStart =>
    obtain ⟨hp, hc, hk⟩ := execWarmStart_keeps h
    exact ⟨hp, hc, trivial, hk, trivial, trivial, trivial, trivial, trivial⟩
  | listenEnd =>
    have ho := execListenEnd_outside h
    exact ⟨congrArg Outside.pending ho, congrArg Outside.cfg ho, congrArg Outside.runTime ho, congrArg Outside.clock ho,
      congrArg Outside.image ho, congrArg Outside.reports ho, congrArg Outside.tracks ho, trivial,
      congrArg Outside.rx ho⟩
  | tick =>
    have ho := execTick_outside s t h
    exact ⟨congrArg Outside.pending ho, congrArg Outside.cfg ho, trivial, trivial, congrArg Outside.image ho,
      congrArg Outside.reports ho, congrArg Outside.tracks ho, fun _ => congrArg Outside.start ho,
      congrArg Outside.rx ho⟩
  | trackInputChange i m b =>
    have ho := execTrackInputChange_outside i m b s t h
    have hs : t.cfl.start = s.cfl.start := congrArg Outside.start ho
    exact edge_leaves ⟨ho.trans (by rw [hs]; rfl), fun _ => hs⟩
  | clockTrim =>
    obtain ⟨hp, hc, hr, _, hi, hn, ht, hs, hx⟩ := parts_of_outside (execClockTrim_outside s t h)
    exact ⟨hp, hc, hr, trivial, hi, hn, ht, hs, hx⟩
  | status =>
    obtain ⟨hp, hc, hr, _, hi, hn, ht, hs, _⟩ := parts_of_outside (execStatus_outside s t h)
    refine ⟨hp, hc, hr, trivial, hi, hn, ht, hs, onReceivedKind_rx (fun r u => ?_) h⟩
    split
    · exact congrArg Outside.rx (takeStatus_moves ..)
    · rfl
  | dayStart =>
    obtain ⟨hp, hc, hr, _, hi, hn, ht, hs, _⟩ := parts_of_outside (execDayStart_outside s t h)
    exact ⟨hp, hc, hr, trivial, hi, hn, ht, hs, onDirectiveKind_rx h⟩
  | telegramReceived m bs =>
    obtain ⟨hp, hc, hr, hk, hi, hn, ht, hs, _⟩ := parts_of_outside (execTelegramReceived_outside m bs s t h)
    exact ⟨hp, hc, hr, hk, hi, hn, ht, hs, execTelegramReceived_rx h⟩
  | point =>
    obtain ⟨hp, hc, hr, _, _, _, ht, hs, hx⟩ := parts_of_outside (execPoint_outside s t h)
    exact ⟨hp, hc, hr, execPoint_clock h, trivial, trivial, ht, hs, hx⟩
  | workstationDirective =>
    obtain ⟨hp, hc, hr, _, _, _, ht, hs, hx⟩ := parts_of_outside (execWorkstationDirective_outside s t h)
    exact ⟨hp, hc, hr, trivial, onReport_image (fun r u => workstation_image u r) h, trivial, ht, hs, hx⟩
  | stationLinkSilence => exact linkLost_leaves (execStationLinkSilence_outside s t h)
  | stationLinkBreak => exact linkLost_leaves (execStationLinkBreak_outside s t h)
  | rebuildTimerExpiry => exact parts_of_outside (execRebuildTimerExpiry_outside s t h)
  | statusPeriod => exact parts_of_outside (execStatusPeriod_outside s t h)
  | dwellMark p => exact parts_of_outside (execDwellMark_outside p s t h)
  | dwellExpiry p => exact parts_of_outside (execDwellExpiry_outside p s t h)
  | authWaitExpiry p => exact parts_of_outside (execAuthWaitExpiry_outside p s t h)
  | cueWaitExpiry p => exact parts_of_outside (execCueWaitExpiry_outside p s t h)
  | powerWaitExpiry p => exact parts_of_outside (execPowerWaitExpiry_outside p s t h)
  | handoverRetryExpiry n => exact parts_of_outside (execHandoverRetryExpiry_outside n s t h)
  | orphanRetryExpiry n => exact parts_of_outside (execOrphanRetryExpiry_outside n s t h)
  | stallWatchExpiry n => exact parts_of_outside (execStallWatchExpiry_outside n s t h)
  | gateCompletion k n => exact parts_of_outside (execGateCompletion_outside k n s t h)
  | recloseDelayExpiry k => exact parts_of_outside (execRecloseDelayExpiry_outside k s t h)
  | closeAllowanceExpiry k => exact parts_of_outside (execCloseAllowanceExpiry_outside k s t h)
  | countedStartExpiry k => exact parts_of_outside (execCountedStartExpiry_outside k s t h)
  | retryWaitEnd p => exact parts_of_outside (execRetryWaitEnd_outside p s t h)
  | askWaitEnd p => exact parts_of_outside (execAskWaitEnd_outside p s t h)
  | queuedAskRefreshExpiry k => exact parts_of_outside (execQueuedAskRefreshExpiry_outside k s t h)
  | takenStartExpiry k => exact parts_of_outside (execTakenStartExpiry_outside k s t h)
  | clearedLingerEnd n k => exact parts_of_outside (execClearedLingerEnd_outside n k s t h)
  | escalationExpiry k => exact parts_of_outside (execEscalationExpiry_outside k s t h)
  | peerAgeing n k => exact parts_of_outside (execPeerAgeing_outside n k s t h)
  | incidentRefresh k => exact parts_of_outside (execIncidentRefresh_outside k s t h)
  | wakeTimerExpiry => exact parts_of_outside (execWakeTimerExpiry_outside s t h)
  | readyRise => exact parts_of_outside (execReadyRise_outside s t h)
  | readyFall => exact parts_of_outside (execReadyFall_outside s t h)
  | playerTimerExpiry => exact parts_of_outside (execPlayerTimerExpiry_outside s t h)
  | transmitStart m q e => exact parts_of_outside (execTransmitStart_outside m q e s t h)
  | telegramSent m => exact parts_of_outside (execTelegramSent_outside m s t h)
  | collision m => exact parts_of_outside (execCollision_outside m s t h)
  | echoFault m => exact parts_of_outside (execEchoFault_outside m s t h)
  | fragment m bs => exact parts_of_outside (execFragment_outside m bs s t h)
  | lineBusFaultQuietEnd => exact parts_of_outside (execLineBusFaultQuietEnd_outside s t h)
  | neighbourAbsent n => exact parts_of_outside (execNeighbourAbsent_outside n s t h)
  | planTimerExpiry => exact parts_of_outside (execPlanTimerExpiry_outside s t h)
  | sweepWaitEnd => exact parts_of_outside (execSweepWaitEnd_outside s t h)
  | commandFrameSent => exact parts_of_outside (execCommandFrameSent_outside s t h)
  | firstLevel i m => exact edge_leaves (execFirstLevel_outside i m s t h)
  | berthRise i m => exact edge_leaves (execBerthRise_outside i m s t h)
  | berthFall i m => exact edge_leaves (execBerthFall_outside i m s t h)
  | brakePointRise i m => exact edge_leaves (execBrakePointRise_outside i m s t h)
  | brakePointFall i m => exact edge_leaves (execBrakePointFall_outside i m s t h)
  | validFrame bs => exact report_leaves (execValidFrame_outside bs s t h)
  | sweepBegin => exact report_leaves (execSweepBegin_outside s t h)
  | sweepEnd => exact report_leaves (execSweepEnd_outside s t h)
  | planClear => exact onPlanOrder_leaves (fun _ _ _ => rfl) h (execPlanClear_outside s t h)
  | planEntry => exact onPlanOrder_leaves (fun _ _ _ => rfl) h (execPlanEntry_outside s t h)
  | planSend => exact onPlanOrder_leaves (fun _ _ _ => rfl) h (execPlanSend_outside s t h)
  | handover => exact onKind_leaves (fun x u => by grind [takeHandover_outside]) h
  | takeover => exact onKind_leaves (fun x u => by grind [endHandover_outside]) h
  | refusal => exact onKind_leaves (fun x u => by grind [takeRefusal_outside]) h
  | renewAsk => exact onKind_leaves (fun x u => by grind [answerRenewal_outside]) h
  | renewReply => exact onKind_leaves (fun x u => by grind [takeRenewal_outside]) h
  | powerAsk => exact onKind_leaves (fun x u => by grind [ownerAsk_outside]) h
  | powerReturn => exact onKind_leaves (fun x u => by grind [ownerReturn_outside]) h
  | powerGrant => exact onKind_leaves (fun x u => by grind [askerGrant_outside]) h
  | powerDefer => exact onKind_leaves (fun x u => by grind [askerDefer_outside]) h
  | incident => exact onKind_leaves (fun x u => by grind [takeIncident_outside]) h
  | planOpen => exact onKind_leaves (fun x u => by grind [takePlanOpen_outside]) h
  | planBlock => exact onKind_leaves (fun x u => by grind [takePlanBlock_outside]) h
  | planClose => exact onKind_leaves (fun x u => by grind [takePlanClose_outside]) h
  | answer => exact onKind_leaves (fun _ _ => rfl) h
  | ackIncident | clearIncident | declareIncident | clearOverflow | announce | cancelAnnounce | isolateSection
  | restoreSection | holdTrain | releaseTrain | withdrawRun | insertRun | setMode | fieldQuery | restartNode
  | unknownDirective =>
    exact onDirectiveKind_leaves (fun _ => rfl) h

end Sys2Proof.Machine
end

section
/-! PROOFS. The Timing Unit's tick and trim, and the service clock's two states. -/

namespace Sys2Proof.Machine

open Sys2Proof

/-! ## The tick (R148) -/

theorem execTick_taken {s : State} (hr : s.pins.resetLow = false) : exec .tick s = .next s.tickAll :=
  congrArg Host.Outcome.next (if_neg (by simp [hr]))

/-- What a tick that is taken answers. -/
theorem tick_eq {s t : State} (hr : s.pins.resetLow = false) (h : exec .tick s = .next t) : t = s.tickAll := by
  rw [execTick_taken hr] at h
  cases h
  rfl

/-- The clock's step leaves the timers. -/
@[simp] theorem stepClock_rest (t : Tiu) : t.stepClock.chans = t.chans ∧ t.stepClock.coarse = t.coarse ∧
    t.stepClock.trimDue = t.trimDue := by
  unfold Tiu.stepClock
  split
  · exact ⟨rfl, rfl, rfl⟩
  · split <;> exact ⟨rfl, rfl, rfl⟩

theorem stepClock_unset {t : Tiu} (h : t.clock = none) :
    t.stepClock.clock = none ∧ t.stepClock.overrun = t.overrun := by
  simp only [Tiu.stepClock, h, and_self]

theorem stepClock_valid {t : Tiu} {c : Nat} (h : t.clock = some c) :
    if c < 1079999 then t.stepClock.clock = some (c + 1) ∧ t.stepClock.overrun = t.overrun
    else t.stepClock.clock = some c ∧ t.stepClock.overrun = true := by
  simp only [Tiu.stepClock, h]
  split <;> exact ⟨rfl, rfl⟩

/-! ## The timers at a tick (R150, R153, R154) -/

theorem tickAll_chan {s : State} {i : Nat} (hi : i < s.tiu.chans.length) :
    s.tickAll.chan i = tickChannel s.tiu.chans i (s.chan i) := by
  simp [State.chan, State.tickAll, tickChannels, hi]

theorem tickAll_place {s : State} {i : Nat} (hi : i < s.tiu.coarse.length) :
    s.tickAll.place i = (s.place i).tick (stepRunTime s.runTime) := by
  simp [State.place, State.tickAll, hi]

/-- A single RUNNING channel whose expiry does not wait to be taken. -/
theorem tickChannel_single {cs : List Channel} {i : Nat} {c : Channel} (hu : c.use = .running)
    (hp : c.partner = none) (hd : c.expiryDue = false) : tickChannel cs i c = c.tick := by
  simp [tickChannel, hu, hp, hd]

/-- One half of a RUNNING pair whose expiry does not wait to be taken. -/
theorem tickChannel_pair {cs : List Channel} {i j : Nat} {c : Channel} (hu : c.use = .running)
    (hp : c.partner = some j) (hd : c.expiryDue = false) (ho : (cs.getD j .bound).expiryDue = false) :
    tickChannel cs i c = c.tickPair (cs.getD j .bound) (i % 2 = 0) := by
  simp only [tickChannel, hu, hp, hd, ho, beq_self_eq_true, Bool.or_self, Bool.false_eq_true, if_true, if_false]

/-- The count, the expiry and the mark of a single channel that counts down. -/
theorem Channel.tick_counts (c : Channel) (hd : c.expiryDue = false) :
    c.tick.use = c.use ∧ c.tick.expiryDue = decide (c.count - 1 = 0) ∧
      c.tick.count = (if c.count - 1 = 0 ∧ c.periodic then c.reload else c.count - 1) ∧
      c.tick.markDue = (c.markDue || c.mark == some (c.count - 1)) := by
  unfold Channel.tick
  by_cases h0 : c.count - 1 = 0
  · by_cases hp : c.periodic = true <;> simp [h0, hp]
  · simp [h0, hd]

/-- The two halves of a joined pair count down as one number of 32 bits. -/
theorem Channel.tickPair_counts (low high : Channel) :
    let n := low.count + 65536 * high.count - 1
    (low.tickPair high true).count + 65536 * (high.tickPair low false).count = n ∧
      (low.tickPair high true).expiryDue = decide (n = 0) := by
  refine ⟨?_, ?_⟩
  · exact Nat.mod_add_div ..
  · simp [Channel.tickPair, Bool.beq_eq_decide_eq]

theorem CoarsePlace.tick_eq (n : Nat) (c : CoarsePlace) :
    c.tick n = { c with due := c.due || (c.occupied && !c.paused && decide (c.deadline ≤ n) && n % 10 == 0) } := by
  unfold CoarsePlace.tick
  split
  · rename_i h
    simp [h]
  · rename_i h
    simp [Bool.eq_false_iff.mpr h]

/-- Settles O15, by the kinds of timer. -/
theorem tickCountsTimersDown : Obligations.TickCountsTimersDown := by
  refine ⟨fun s hr => ⟨_, execTick_taken hr, rfl, ?_, rfl⟩, fun s t hr h => ?_⟩
  · exact (Nat.succ_mul _ _).symm
  · rw [tick_eq hr h]
    refine ⟨fun i hi hu hp hd _ => ?_, fun i hi heven hu hu' hp hp' hd hd' _ => ?_, fun i hi => ?_⟩
    · rw [tickAll_chan hi, tickChannel_single hu hp hd]
      obtain ⟨huse, hrest⟩ := (s.chan i).tick_counts hd
      exact ⟨huse.trans hu, hrest⟩
    · have hodd : ¬ (i + 1) % 2 = 0 := by omega
      rw [tickAll_chan (by omega), tickAll_chan hi, tickChannel_pair hu hp hd hd', tickChannel_pair hu' hp' hd' hd,
        decide_eq_true heven, decide_eq_false hodd]
      exact (s.chan i).tickPair_counts (s.chan (i + 1))
    · rw [tickAll_place hi, CoarsePlace.tick_eq]
      rfl

/-! ## The trim (R159) -/

/-- A move of the clock keeps it within its range, and sets the day-overrun flag past the limit alone. -/
theorem Tiu.move_eq (t : Tiu) (c : Nat) (m : Int) :
    let x : Int := (c : Int) + m
    t.move c m = { t with
      clock := some (if x < 0 then 0 else if 1079999 < x then 1079999 else x.toNat)
      overrun := t.overrun || decide (1079999 < x) } := by
  intro x
  show (if x < 0 then _ else if 1079999 < x then _ else { t with clock := some x.toNat }) = _
  by_cases hlow : x < 0
  · have hhigh : ¬ 1079999 < x := by omega
    simp [hlow, hhigh]
  · by_cases hhigh : 1079999 < x <;> simp [hlow, hhigh]

/-- The trim discards the offsets, and moves neither the timers nor anything outside the Timing Unit. -/
theorem trimClock_frame (s : State) : s.trimClock.tiu.offsets = [] ∧ { s.trimClock with tiu := s.tiu } = s ∧
    s.trimClock.tiu.chans = s.tiu.chans ∧ s.trimClock.tiu.coarse = s.tiu.coarse := by
  unfold State.trimClock
  dsimp only
  split
  · exact ⟨rfl, rfl, rfl, rfl⟩
  · split
    · rw [Tiu.move_eq]
      exact ⟨rfl, rfl, rfl, rfl⟩
    · exact ⟨rfl, rfl, rfl, rfl⟩

/-- A VALID clock moves by the trim where R159's test holds, and stays where it does not. -/
theorem trimClock_clock {s : State} {c : Nat} (hc : s.tiu.clock = some c) :
    let offs := s.trimNeighbours.filterMap s.freshOffset
    if s.cfg.role = .station ∧ s.cfg.reference = false ∧ c < 1079999 ∧ s.trimNeighbours ≠ [] ∧
        offs.length = s.trimNeighbours.length then
      let x : Int := (c : Int) + trimOf offs
      s.trimClock.tiu.clock = some (if x < 0 then 0 else if 1079999 < x then 1079999 else x.toNat) ∧
        s.trimClock.tiu.overrun = (s.tiu.overrun || decide (1079999 < x))
    else s.trimClock.tiu.clock = some c ∧ s.trimClock.tiu.overrun = s.tiu.overrun := by
  intro offs
  have htest : (s.isStation && !s.cfg.reference && decide (c < serviceMax) && !s.trimNeighbours.isEmpty &&
      offs.length == s.trimNeighbours.length) = true ↔ s.cfg.role = .station ∧ s.cfg.reference = false ∧ c < 1079999 ∧
        s.trimNeighbours ≠ [] ∧ offs.length = s.trimNeighbours.length := by
    simp [State.isStation, and_assoc]
  simp only [State.trimClock, hc]
  split
  · rename_i ht
    rw [if_pos (htest.mpr ht), Tiu.move_eq]
    exact ⟨rfl, rfl⟩
  · rename_i ht
    rw [if_neg (mt htest.mp ht)]
    exact ⟨rfl, rfl⟩

/-- CLOCK_TRIM where it is due: at rest the trim leaves nothing to take. -/
theorem execClockTrim_taken {s : State} (hr : s.Ready) (hd : s.tiu.trimDue = true) :
    exec .clockTrim s = .next s.trimClock := by
  obtain ⟨hlow, hwork, hdirty⟩ := hr
  obtain ⟨_, hrest, _⟩ := trimClock_frame s
  have hquiet : s.trimClock.Quiet :=
    ⟨(congrArg State.work hrest).trans hwork, (congrArg (fun u : State => u.inu.dirty) hrest).trans hdirty⟩
  exact (onEvent_taken s _ _ hlow hd).trans (by rw [finish_quiet _ hquiet])

/-- Settles O16: the tick that makes the trim due, then the trim by its test. -/
theorem trimMovesTheClockAlone : Obligations.TrimMovesTheClockAlone := by
  refine ⟨fun s t hr h => ?_, fun s hr hd => ?_⟩
  · rw [tick_eq hr h]
    exact (stepClock_rest _).2.2
  · obtain ⟨hoffsets, hrest, hchans, hcoarse⟩ := trimClock_frame s
    refine ⟨_, execClockTrim_taken hr hd, hoffsets, hrest, hchans, hcoarse, fun _ hc => trimClock_clock hc⟩

/-! ## The service clock's two states (R156) -/

theorem trimClock_valid {s : State} (h : s.tiu.clock ≠ none) : s.trimClock.tiu.clock ≠ none := by
  obtain ⟨c, hc⟩ := Option.ne_none_iff_exists'.mp h
  have ht := trimClock_clock hc
  dsimp only at ht
  split at ht
  all_goals
    rw [ht.1]
    exact Option.some_ne_none _

theorem stepClock_stays_valid {t : Tiu} (h : t.clock ≠ none) : t.stepClock.clock ≠ none := by
  obtain ⟨c, hc⟩ := Option.ne_none_iff_exists'.mp h
  have ht := stepClock_valid hc
  split at ht
  all_goals
    rw [ht.1]
    exact Option.some_ne_none _

/-- A STATUS sets an UNSET clock alone (R157). -/
theorem setClockFrom_valid {s : State} (n : Nat) (b : StatusBody) (h : s.tiu.clock ≠ none) : s.setClockFrom n b = s := by
  obtain ⟨c, hc⟩ := Option.ne_none_iff_exists'.mp h
  simp only [State.setClockFrom, hc]

theorem takeStatus_valid {s : State} (r : Received) (b : StatusBody) (h : s.tiu.clock ≠ none) :
    (s.takeStatus r b).tiu.clock = s.tiu.clock := by
  let u := (s.hearStatus r.tg.sender r.time b).keepOffset r.tg.sender b r.stamp
  have hu : u.tiu.clock = s.tiu.clock :=
    congrArg Outside.clock ((keepOffset_outside ..).trans (hearStatus_outside ..))
  calc (s.takeStatus r b).tiu.clock
      = (u.setClockFrom r.tg.sender b).tiu.clock :=
        congrArg Outside.clock ((updateMirrors_outside ..).trans (hoeStatus_outside ..))
    _ = u.tiu.clock := by rw [setClockFrom_valid _ _ (by rw [hu]; exact h)]
    _ = s.tiu.clock := hu

/-- A directive taken leaves a VALID clock VALID. -/
theorem takeDirective_valid {s : State} (n k : Nat) (d : Directive) (h : s.tiu.clock ≠ none) :
    (s.takeDirective n k d).tiu.clock ≠ none := by
  rcases takeDirective_clock s n k d with hk | ⟨x, _, hk⟩ <;> rw [hk]
  · exact h
  · exact Option.some_ne_none x

theorem workstation_valid {s : State} (r : Report) (h : s.tiu.clock ≠ none) : (s.workstation r).tiu.clock ≠ none := by
  rcases workstation_clock s r with hk | ⟨x, hk⟩ <;> rw [hk]
  · exact h
  · exact Option.some_ne_none x

/-- An event's end leaves a VALID clock VALID. -/
theorem finish_valid (s : State) (h : s.tiu.clock ≠ none) : (finish s).tiu.clock ≠ none := by
  rw [finish_clock]
  exact h

/-- A telegram's command leaves a VALID clock VALID when its block's part does. -/
theorem onReceivedKind_valid {s t : State} {want : Body → Bool} {f : Received → State → State}
    (hf : ∀ r u, u.tiu.clock ≠ none → (f r u).tiu.clock ≠ none) (h : onReceivedKind s want f = .next t)
    (hv : s.tiu.clock ≠ none) : t.tiu.clock ≠ none :=
  onReceivedKind_preserves (·.tiu.clock ≠ none) hv
    (fun v ho => by rw [show v.tiu.clock = s.tiu.clock from congrArg Outside.clock ho]; exact hv) finish_valid
    (fun r u _ => hf r u) h

/-- No command but a cold start makes a VALID clock UNSET. -/
theorem exec_clock_valid {c : Instr} {s t : State} (h : exec c s = .next t) (hv : s.tiu.clock ≠ none)
    (hpower : c ≠ .powerOn) (hassert : c ≠ .resetAssert) (hrelease : c ≠ .resetRelease) : t.tiu.clock ≠ none := by
  cases c with
  | powerOn => exact absurd rfl hpower
  | resetAssert => exact absurd rfl hassert
  | resetRelease => exact absurd rfl hrelease
  | tick =>
    cases h
    split
    · exact hv
    · exact stepClock_stays_valid hv
  | clockTrim =>
    rcases onEvent_cases s t _ _ h with h | ⟨_, _, h⟩ <;> rw [h]
    · exact hv
    · exact finish_valid _ (trimClock_valid hv)
  | status =>
    refine onReceivedKind_valid (fun r u hu => ?_) h hv
    split
    · rw [takeStatus_valid _ _ hu]
      exact hu
    · exact hu
  | dayStart =>
    refine onReceivedKind_valid (fun r u hu => ?_) h hv
    dsimp only
    split
    · exact takeDirective_valid _ _ _ hu
    · exact hu
  | workstationDirective =>
    exact onReport_preserves (·.tiu.clock ≠ none) hv (fun _ => hv) finish_valid (fun r u _ => workstation_valid r) h
  | _ =>
    obtain ⟨_, _, _, hkept, _⟩ := commandsLeaveTheRest _ s t h
    exact fun hn => hv (hkept.symm.trans hn)

/-- A raw level change replaces the candidate by one with the clock's stamp, or discards it (R178). -/
theorem rawChange_candidate {s : State} {i : Nat} (m : Nat) (active : Bool) (hi : i < s.slc.tracks.length) :
    ((s.rawChange i m active).track i).candidate = none ∨
      ((s.rawChange i m active).track i).candidate = some { active := active, began := m, stamp := s.tiu.clock } := by
  simp only [State.rawChange, State.track, updTrack_slc, List.getD_eq_getElem?_getD, List.getElem?_modify_eq,
    List.getElem?_eq_getElem hi, Option.map_eq_map, Option.map_some, Option.getD_some]
  split
  · exact .inr rfl
  · split
    · exact .inl rfl
    · exact .inr rfl

/-- Settles O14: the tick's two states, what a STATUS carries, the stamps, and the cold starts. -/
theorem serviceClockKeepsItsStates : Obligations.ServiceClockKeepsItsStates := by
  refine ⟨fun s t hr h => ?_, fun s => ⟨rfl, rfl, rfl⟩, fun i m active x s hunset hi hx => ?_, fun s t h => ?_,
    fun s t hr h => ?_, fun c s t h hv => ?_⟩
  · rw [tick_eq hr h]
    cases hc : s.tiu.clock with
    | none => exact stepClock_unset hc
    | some c => exact stepClock_valid hc
  · rcases rawChange_candidate m active hi with hnone | hsome
    · exact absurd (hnone.symm.trans hx) nofun
    · cases hsome.symm.trans hx
      exact hunset
  · cases h
    rfl
  · cases h
    exact congrArg (fun u : State => u.tiu.clock) (if_neg (by simp [hr]))
  · cases c with
    | powerOn | resetAssert | resetRelease => trivial
    | _ => exact exec_clock_valid h hv nofun nofun nofun

end Sys2Proof.Machine
end

section
/-! PROOFS. The queues that the outside fills, the track pins, the running time and a console's field image, over every
step. -/

namespace Sys2Proof.Machine

open Sys2Proof

/-! ## Starts (R193, R196) -/

/-- The commands of the cold starts and of the warm start. -/
def startCommand : Instr → Bool
  | .powerOn | .resetAssert | .resetRelease | .warmStart => true
  | _ => false

/-- What the outside fills or drives, as a start from s leaves it: queues, running time and field image as after reset,
the track pins as they stand. -/
structure FreshFrom (s t : State) : Prop where
  rx : t.lbc.rx = []
  reports : t.slc.reports = []
  trk : t.pins.trk = s.pins.trk
  runTime : t.runTime = 0
  image : t.slc.image = noPoints

theorem coldStart_fresh (s : State) (low : Bool) : FreshFrom s (s.coldStart.setReset low) := ⟨rfl, rfl, rfl, rfl, rfl⟩

theorem warmStart_fresh (s : State) : FreshFrom s (finish s.warmState.enterListen) := by
  have hend := finish_outside s.warmState.enterListen
  generalize finish s.warmState.enterListen = v at hend ⊢
  rw [enterListen_outside s.warmState] at hend
  refine ⟨congrArg Outside.rx hend, congrArg Outside.reports hend, congrArg Outside.trk hend,
    congrArg Outside.runTime hend, (congrArg Outside.image hend).trans ?_⟩
  exact ite_self _

theorem execWarmStart_fresh {s t : State} (h : execWarmStart s = .next t) : t = s ∨ FreshFrom s t := by
  rcases onEvent_cases s t _ _ h with h | ⟨_, _, h⟩
  · exact .inl h
  · exact .inr (h ▸ warmStart_fresh s)

/-- A start's command changes nothing, or starts the part. -/
theorem start_fresh {c : Instr} {s t : State} (hc : startCommand c = true) (h : exec c s = .next t) :
    t = s ∨ FreshFrom s t := by
  cases c with
  | powerOn =>
    cases h
    exact .inr ⟨rfl, rfl, rfl, rfl, rfl⟩
  | resetAssert =>
    cases h
    split
    · exact .inl rfl
    · exact .inr (coldStart_fresh s true)
  | resetRelease =>
    cases h
    split
    · exact .inr (coldStart_fresh s false)
    · exact .inl rfl
  | warmStart => exact execWarmStart_fresh h
  | _ => cases hc

/-! ## The receive queue (R169) -/

/-- A telegram from the line joins the receive queue only where a place is free. -/
theorem receive_room {s : State} (m : Nat) (bs : Bytes) (hs : s.lbc.rx.length ≤ rxRoom) :
    (s.receive m bs).lbc.rx.length ≤ rxRoom := by
  unfold State.receive State.joinRx
  dsimp only
  split
  · split
    · split
      · exact hs
      split
      · split
        · next hfree =>
          rw [List.length_append]
          exact hfree
        · exact hs
      · exact hs
    · exact hs
  · exact hs

theorem execTelegramReceived_room {cycle : Nat} {bs : Bytes} {s t : State}
    (h : execTelegramReceived cycle bs s = .next t) (hs : s.lbc.rx.length ≤ rxRoom) : t.lbc.rx.length ≤ rxRoom := by
  unfold execTelegramReceived onCycle at h
  rcases onEvent_cases s t _ _ h with h | ⟨_, _, h⟩
  · exact h ▸ hs
  · rw [h, finish_rx]
    unfold State.atCycle
    split
    · split
      · exact receive_room _ bs hs
      · exact hs
    · exact hs

/-- A list of which nothing or the head was taken is within its places. -/
theorem taken_room {α : Type} {l k : List α} {n : Nat} (h : k = l ∨ k = l.drop 1) (hl : l.length ≤ n) : k.length ≤ n := by
  rcases h with h | h
  · exact h ▸ hl
  · exact h ▸ drop_room hl

/-- Every command keeps the receive queue within its places: one telegram joins it where there is room, the others take
its head or empty it. -/
theorem exec_rx_room {c : Instr} {s t : State} (h : exec c s = .next t) (hs : s.lbc.rx.length ≤ rxRoom) :
    t.lbc.rx.length ≤ rxRoom := by
  obtain ⟨_, _, _, _, _, _, _, _, hx⟩ := commandsLeaveTheRest c s t h
  cases c with
  | powerOn | resetAssert | resetRelease | warmStart =>
    rcases start_fresh rfl h with rfl | hf
    · exact hs
    · exact hf.rx ▸ Nat.zero_le _
  | telegramReceived => exact execTelegramReceived_room h hs
  | status | answer | handover | takeover | refusal | renewAsk | renewReply | powerAsk | powerReturn | powerGrant
  | powerDefer | incident | planOpen | planBlock | planClose | ackIncident | clearIncident | declareIncident
  | clearOverflow | announce | cancelAnnounce | isolateSection | restoreSection | holdTrain | releaseTrain
  | withdrawRun | insertRun | setMode | fieldQuery | dayStart | restartNode | unknownDirective =>
    exact taken_room hx hs
  | _ => exact taken_room (.inl hx) hs

/-! ## The report FIFO (R182) -/

/-- Taking a report takes the head from the report FIFO, or nothing. -/
theorem onReport_reports {s t : State} {want : Report → Bool} {f : Report → State → State}
    (hf : ∀ r u, (f r u).slc.reports = u.slc.reports) (h : onReport s want f = .next t) :
    t.slc.reports = s.slc.reports ∨ t.slc.reports = s.slc.reports.drop 1 := by
  rcases onEvent_cases s t _ _ h with h | ⟨_, _, h⟩
  · exact .inl (by rw [h])
  · rw [h, finish_reports]
    unfold State.takeReport
    split
    · exact .inl rfl
    · next hrs =>
      split
      · exact .inr (by rw [hf, hrs]; rfl)
      · exact .inl rfl

/-- A report joins the FIFO only where a place is free. -/
theorem joinReports_room {s : State} (r : Report) (hs : s.slc.reports.length ≤ reportRoom) :
    (s.joinReports r).slc.reports.length ≤ reportRoom := by
  unfold State.joinReports
  split
  · next hfree =>
    rw [List.length_append]
    exact hfree
  · have hkept := congrArg Outside.reports (requestSweep_outside
      { s with slc := { s.slc with lostReports := stepCount s.slc.lostReports } } .overrun)
    exact taken_room (.inl hkept) hs

theorem frame_room {s : State} (f : InFrame) (hs : s.slc.reports.length ≤ reportRoom) :
    (s.frame f).slc.reports.length ≤ reportRoom := by
  have hlink : ({ s with slc := { s.slc with lastValid := s.runTime } } : State).restoreLink.slc.reports.length ≤
      reportRoom :=
    taken_room (.inl (congrArg Outside.reports (restoreLink_outside _))) hs
  unfold State.frame
  dsimp only
  split
  · exact hlink
  · split
    · exact joinReports_room _ hlink
    · exact hlink

theorem execValidFrame_room {bs : Bytes} {s t : State} (h : execValidFrame bs s = .next t)
    (hs : s.slc.reports.length ≤ reportRoom) : t.slc.reports.length ≤ reportRoom := by
  unfold execValidFrame at h
  split at h
  · next f _ =>
    rcases onEvent_cases s t _ _ h with h | ⟨_, _, h⟩
    · exact h ▸ hs
    · rw [h, finish_reports]
      exact frame_room f hs
  · rw [onEvent_passed s false id (.inr rfl)] at h
    cases h
    exact hs

/-- Every command keeps the report FIFO within its places. -/
theorem exec_reports_room {c : Instr} {s t : State} (h : exec c s = .next t) (hs : s.slc.reports.length ≤ reportRoom) :
    t.slc.reports.length ≤ reportRoom := by
  obtain ⟨_, _, _, _, _, hn, _⟩ := commandsLeaveTheRest c s t h
  cases c with
  | powerOn | resetAssert | resetRelease | warmStart =>
    rcases start_fresh rfl h with rfl | hf
    · exact hs
    · exact hf.reports ▸ Nat.zero_le _
  | validFrame => exact execValidFrame_room h hs
  | point =>
    refine taken_room (onReport_reports (fun r u => ?_) h) hs
    split
    · exact congrArg Base.reports (takePoint_base ..)
    · rfl
  | sweepBegin =>
    refine taken_room (onReport_reports (fun r u => ?_) h) hs
    split
    · rfl
    · exact congrArg Outside.reports (beginSweep_outside ..)
  | sweepEnd => exact taken_room (onReport_reports (fun r u => congrArg Outside.reports (endSweep_outside ..)) h) hs
  | workstationDirective | planClear | planEntry | planSend =>
    exact taken_room (onReport_reports (fun r u => congrArg Base.reports (workstation_base ..)) h) hs
  | _ => exact taken_room (.inl hn) hs

/-! ## The running time (4.5) -/

theorem exec_runTime_le {c : Instr} {s t : State} (h : exec c s = .next t) (hs : s.runTime ≤ runTimeMax) :
    t.runTime ≤ runTimeMax := by
  obtain ⟨_, _, hr, _⟩ := commandsLeaveTheRest c s t h
  cases c with
  | powerOn | resetAssert | resetRelease | warmStart =>
    rcases start_fresh rfl h with rfl | hf
    · exact hs
    · exact hf.runTime ▸ Nat.zero_le _
  | tick =>
    cases h
    split
    · exact hs
    · exact Nat.min_le_left ..
  | _ => exact Nat.le_trans (Nat.le_of_eq hr) hs

/-! ## The track pins (R178) -/

/-- What a command leaves of the track pins, read off what it moves of the outside part. -/
theorem trk_of_outside {s t : State} {rm : Nat} {dk : Dck} {rx : List Received} {rp : List Report}
    {tr : List TrackDyn} {im : List PointVal} {ck : Option Nat} {rd : Bool} {rest : Prop}
    (h : t.outside = { s.outside with
        start := t.cfl.start, refMoment := rm, dck := dk, rx := rx, reports := rp, tracks := tr, image := im, clock := ck
        ready := rd } ∧ rest) : t.pins.trk = s.pins.trk :=
  congrArg Outside.trk h.1

/-- A track input's level changes one of the eight pins. -/
theorem execTrackInputChange_trk {i cycle : Nat} {high : Bool} {s t : State}
    (h : execTrackInputChange i cycle high s = .next t) : t.pins.trk.length = s.pins.trk.length := by
  cases h
  unfold State.atCycle
  split
  · next m _ =>
    split
    · exact congrArg Base.pins (pinChange_base { s with refMoment := m } i m high)
    · rfl
  · rfl

theorem execImageChecked_trk {image : Bytes} {s t : State} (h : execImageChecked image s = .next t) :
    t.pins.trk = s.pins.trk := by
  rcases onEvent_cases s t _ _ h with h | ⟨_, _, h⟩
  · rw [h]
  · rw [h]
    refine (congrArg Outside.trk (finish_outside _)).trans ?_
    split
    · next c _ =>
      have ho := enterListen_outside { s with cfg := c }
      generalize State.enterListen { s with cfg := c } = v at ho ⊢
      exact congrArg Outside.trk ho
    · rfl

/-- Every command keeps the number of track pins. -/
theorem exec_trk_length {c : Instr} {s t : State} (h : exec c s = .next t) :
    t.pins.trk.length = s.pins.trk.length := by
  cases c with
  | powerOn | resetAssert | resetRelease | warmStart =>
    rcases start_fresh rfl h with rfl | hf
    · rfl
    · rw [hf.trk]
  | trackInputChange => exact execTrackInputChange_trk h
  | imageChecked => rw [execImageChecked_trk h]
  | listenEnd => exact congrArg (fun o => o.trk.length) (execListenEnd_outside h)
  | rebuildTimerExpiry => rw [trk_of_outside (execRebuildTimerExpiry_outside s t h)]
  | tick => exact congrArg (fun o => o.trk.length) (execTick_outside s t h)
  | clockTrim => rw [trk_of_outside (execClockTrim_outside s t h)]
  | statusPeriod => rw [trk_of_outside (execStatusPeriod_outside s t h)]
  | firstLevel => rw [trk_of_outside (execFirstLevel_outside _ _ s t h)]
  | berthRise => rw [trk_of_outside (execBerthRise_outside _ _ s t h)]
  | brakePointRise => rw [trk_of_outside (execBrakePointRise_outside _ _ s t h)]
  | berthFall => rw [trk_of_outside (execBerthFall_outside _ _ s t h)]
  | dwellMark => rw [trk_of_outside (execDwellMark_outside _ s t h)]
  | dwellExpiry => rw [trk_of_outside (execDwellExpiry_outside _ s t h)]
  | authWaitExpiry => rw [trk_of_outside (execAuthWaitExpiry_outside _ s t h)]
  | cueWaitExpiry => rw [trk_of_outside (execCueWaitExpiry_outside _ s t h)]
  | powerWaitExpiry => rw [trk_of_outside (execPowerWaitExpiry_outside _ s t h)]
  | handoverRetryExpiry => rw [trk_of_outside (execHandoverRetryExpiry_outside _ s t h)]
  | orphanRetryExpiry => rw [trk_of_outside (execOrphanRetryExpiry_outside _ s t h)]
  | handover => rw [trk_of_outside (execHandover_outside s t h)]
  | takeover => rw [trk_of_outside (execTakeover_outside s t h)]
  | refusal => rw [trk_of_outside (execRefusal_outside s t h)]
  | stallWatchExpiry => rw [trk_of_outside (execStallWatchExpiry_outside _ s t h)]
  | renewAsk => rw [trk_of_outside (execRenewAsk_outside s t h)]
  | renewReply => rw [trk_of_outside (execRenewReply_outside s t h)]
  | gateCompletion => rw [trk_of_outside (execGateCompletion_outside _ _ s t h)]
  | recloseDelayExpiry => rw [trk_of_outside (execRecloseDelayExpiry_outside _ s t h)]
  | closeAllowanceExpiry => rw [trk_of_outside (execCloseAllowanceExpiry_outside _ s t h)]
  | countedStartExpiry => rw [trk_of_outside (execCountedStartExpiry_outside _ s t h)]
  | retryWaitEnd => rw [trk_of_outside (execRetryWaitEnd_outside _ s t h)]
  | askWaitEnd => rw [trk_of_outside (execAskWaitEnd_outside _ s t h)]
  | powerAsk => rw [trk_of_outside (execPowerAsk_outside s t h)]
  | queuedAskRefreshExpiry => rw [trk_of_outside (execQueuedAskRefreshExpiry_outside _ s t h)]
  | powerReturn => rw [trk_of_outside (execPowerReturn_outside s t h)]
  | powerGrant => rw [trk_of_outside (execPowerGrant_outside s t h)]
  | powerDefer => rw [trk_of_outside (execPowerDefer_outside s t h)]
  | takenStartExpiry => rw [trk_of_outside (execTakenStartExpiry_outside _ s t h)]
  | clearedLingerEnd => rw [trk_of_outside (execClearedLingerEnd_outside _ _ s t h)]
  | escalationExpiry => rw [trk_of_outside (execEscalationExpiry_outside _ s t h)]
  | incident => rw [trk_of_outside (execIncident_outside s t h)]
  | peerAgeing => rw [trk_of_outside (execPeerAgeing_outside _ _ s t h)]
  | incidentRefresh => rw [trk_of_outside (execIncidentRefresh_outside _ s t h)]
  | wakeTimerExpiry => rw [trk_of_outside (execWakeTimerExpiry_outside s t h)]
  | readyRise => rw [trk_of_outside (execReadyRise_outside s t h)]
  | readyFall => rw [trk_of_outside (execReadyFall_outside s t h)]
  | playerTimerExpiry => rw [trk_of_outside (execPlayerTimerExpiry_outside s t h)]
  | transmitStart => rw [trk_of_outside (execTransmitStart_outside _ _ _ s t h)]
  | telegramSent => rw [trk_of_outside (execTelegramSent_outside _ s t h)]
  | collision => rw [trk_of_outside (execCollision_outside _ s t h)]
  | echoFault => rw [trk_of_outside (execEchoFault_outside _ s t h)]
  | lineBusFaultQuietEnd => rw [trk_of_outside (execLineBusFaultQuietEnd_outside s t h)]
  | telegramReceived => rw [trk_of_outside (execTelegramReceived_outside _ _ s t h)]
  | status => rw [trk_of_outside (execStatus_outside s t h)]
  | neighbourAbsent => rw [trk_of_outside (execNeighbourAbsent_outside _ s t h)]
  | planOpen => rw [trk_of_outside (execPlanOpen_outside s t h)]
  | planBlock => rw [trk_of_outside (execPlanBlock_outside s t h)]
  | planClose => rw [trk_of_outside (execPlanClose_outside s t h)]
  | planTimerExpiry => rw [trk_of_outside (execPlanTimerExpiry_outside s t h)]
  | answer => rw [trk_of_outside (execAnswer_outside s t h)]
  | validFrame => rw [trk_of_outside (execValidFrame_outside _ s t h)]
  | point => rw [trk_of_outside (execPoint_outside s t h)]
  | sweepBegin => rw [trk_of_outside (execSweepBegin_outside s t h)]
  | sweepEnd => rw [trk_of_outside (execSweepEnd_outside s t h)]
  | sweepWaitEnd => rw [trk_of_outside (execSweepWaitEnd_outside s t h)]
  | stationLinkSilence => rw [trk_of_outside (execStationLinkSilence_outside s t h)]
  | stationLinkBreak => rw [trk_of_outside (execStationLinkBreak_outside s t h)]
  | commandFrameSent => rw [trk_of_outside (execCommandFrameSent_outside s t h)]
  | workstationDirective => rw [trk_of_outside (execWorkstationDirective_outside s t h)]
  | planClear => rw [trk_of_outside (execPlanClear_outside s t h)]
  | planEntry => rw [trk_of_outside (execPlanEntry_outside s t h)]
  | planSend => rw [trk_of_outside (execPlanSend_outside s t h)]
  | fragment => rw [trk_of_outside (execFragment_outside _ _ s t h)]
  | brakePointFall => rw [trk_of_outside (execBrakePointFall_outside _ _ s t h)]
  | restartNode | isolateSection | restoreSection | ackIncident | clearIncident | declareIncident | clearOverflow
  | announce | cancelAnnounce | unknownDirective | holdTrain | releaseTrain | withdrawRun | insertRun | setMode
  | fieldQuery | dayStart =>
    rw [trk_of_outside (onDirectiveKind_outside s t _ h)]

/-! ## A console's field image (R182, R190) -/

/-- The field image of a node in CONSOLE role stays without a value where the role and the image stay. -/
theorem sees_no_point_of_kept {s t : State} (hs : s.ConsoleSeesNoPoint) (hcfg : t.cfg = s.cfg)
    (himage : t.slc.image = s.slc.image) : t.ConsoleSeesNoPoint := by
  intro hrole
  rw [himage]
  exact hs (hcfg ▸ hrole)

theorem sees_no_point_of_noPoints {t : State} (himage : t.slc.image = noPoints) : t.ConsoleSeesNoPoint := by
  intro _ v hv
  rw [himage] at hv
  rw [List.eq_of_mem_replicate hv]

/-- The image given with CONSOLE role empties the field image (log 83); CONFIG_FAULT holds no role. -/
theorem execImageChecked_sees_no_point {image : Bytes} {s t : State} (hs : s.ConsoleSeesNoPoint)
    (h : execImageChecked image s = .next t) : t.ConsoleSeesNoPoint := by
  rcases onEvent_cases s t _ _ h with h | ⟨_, _, h⟩
  · exact h ▸ hs
  · rw [h]
    refine sees_no_point_of_kept ?_ (finish_cfg _) (finish_image _)
    split
    · next c _ =>
      have ho := enterListen_outside { s with cfg := c }
      generalize State.enterListen { s with cfg := c } = v at ho ⊢
      cases hrole : c.role with
      | station =>
        have hcfg : v.cfg = c := congrArg Outside.cfg ho
        intro hv
        rw [hcfg, hrole] at hv
        cases hv
      | console =>
        refine sees_no_point_of_noPoints ((congrArg Outside.image ho).trans ?_)
        exact if_neg (by simp [State.isStation, hrole])
    · exact nofun

theorem takePoint_cfg (s : State) (n v : Nat) : (s.takePoint n v).cfg = s.cfg := by
  simp only [State.takePoint]
  split
  · rfl
  split
  · split
    · exact congrArg Outside.cfg (breakerReport_outside ..)
    · exact congrArg Outside.cfg (pointReport_outside ..)
    · exact congrArg Outside.cfg (pointReport_outside ..)
    · exact congrArg Outside.cfg (pointReport_outside ..)
    · rfl
  · rfl

/-- A POINT report sets no point at a console. -/
theorem takePoint_sees_no_point {u : State} (n v : Nat) (hu : u.ConsoleSeesNoPoint) :
    (u.takePoint n v).ConsoleSeesNoPoint := by
  intro hrole
  rw [takePoint_cfg] at hrole
  have hkept : u.takePoint n v = u := if_pos (by simp [State.isStation, hrole])
  rw [hkept]
  exact hu hrole

theorem execPoint_sees_no_point {s t : State} (hs : s.ConsoleSeesNoPoint) (h : execPoint s = .next t) :
    t.ConsoleSeesNoPoint := by
  refine onReport_preserves State.ConsoleSeesNoPoint hs (fun _ => hs)
    (fun u hu => sees_no_point_of_kept hu (finish_cfg u) (finish_image u)) (fun r u _ hu => ?_) h
  split
  · exact takePoint_sees_no_point _ _ hu
  · exact hu

/-- A link that is LOST leaves each point's value, and makes it stale. -/
theorem loseLink_sees_no_point {s : State} (hs : s.ConsoleSeesNoPoint) : s.loseLink.ConsoleSeesNoPoint := by
  unfold State.loseLink
  split
  · exact hs
  · intro hrole v hv
    obtain ⟨w, hw, rfl⟩ := List.mem_map.mp hv
    exact hs hrole w hw

theorem onEvent_loseLink_sees_no_point {s t : State} {o : Bool} (hs : s.ConsoleSeesNoPoint)
    (h : onEvent s o State.loseLink = .next t) : t.ConsoleSeesNoPoint := by
  rcases onEvent_cases s t _ _ h with h | ⟨_, _, h⟩
  · exact h ▸ hs
  · exact h ▸ sees_no_point_of_kept (loseLink_sees_no_point hs) (finish_cfg _) (finish_image _)

/-- Every command keeps a console's field image without a value at any point. -/
theorem exec_sees_no_point {c : Instr} {s t : State} (hs : s.ConsoleSeesNoPoint) (h : exec c s = .next t) :
    t.ConsoleSeesNoPoint := by
  obtain ⟨_, hcfg, _, _, himage, _⟩ := commandsLeaveTheRest c s t h
  cases c with
  | powerOn | resetAssert | resetRelease | warmStart =>
    rcases start_fresh rfl h with rfl | hf
    · exact hs
    · exact sees_no_point_of_noPoints hf.image
  | imageChecked => exact execImageChecked_sees_no_point hs h
  | point => exact execPoint_sees_no_point hs h
  | stationLinkSilence | stationLinkBreak => exact onEvent_loseLink_sees_no_point hs h
  | _ => exact sees_no_point_of_kept hs hcfg himage

/-! ## Every step -/

/-- A step keeps what every command keeps and the queue of commands does not touch. -/
theorem step_preserves (P : State → Prop) {s t : State} (hqueue : ∀ rest, P s → P { s with pending := rest })
    (hexec : ∀ c u v, P u → exec c u = .next v → P v) (hs : P s) (h : step s = .next t) : P t := by
  unfold step at h
  split at h
  · cases h
    exact hs
  · next c rest _ => exact hexec c _ t (hqueue rest hs) h

/-- Settles O7: each queue, the pins, the running time and the image, over every command. -/
theorem stepKeepsInputsFit : Obligations.StepKeepsInputsFit :=
  ⟨fun _ _ => step_preserves State.InputsFit (fun _ hs => hs) fun _ _ _ ⟨hrx, hreports, htrk, htime⟩ h =>
      ⟨exec_rx_room h hrx, exec_reports_room h hreports, (exec_trk_length h).trans htrk, exec_runTime_le h htime⟩,
    fun _ _ => step_preserves State.ConsoleSeesNoPoint (fun _ hs => hs) fun _ _ _ hs h => exec_sees_no_point hs h⟩

end Sys2Proof.Machine
end

section
/-! PROOFS. What the line brings: events at a cycle of the present tick, fragments, and telegrams received whole. -/

namespace Sys2Proof.Machine

open Sys2Proof

/-! ## Events at a cycle (log 5) -/

/-- An event at a cycle, with its occasion, is taken at its moment. -/
theorem onCycle_taken {s : State} {cycle m : Nat} {occasion : Nat → Bool} (f : Nat → State → State) (hr : s.Ready)
    (hm : s.momentAt cycle = some m) (ho : occasion m = true) :
    onCycle s cycle occasion f = .next (finish (f m { s with refMoment := m })) := by
  have hat : s.atCycle cycle occasion f = f m { s with refMoment := m } := by
    simp only [State.atCycle, hm, if_pos ho]
  rw [onCycle, onEvent_taken s true _ hr.1 rfl, hat]

/-- Without its occasion it does not arise (log 1). -/
theorem onCycle_passed {s : State} {cycle m : Nat} {occasion : Nat → Bool} (f : Nat → State → State) (hr : s.Ready)
    (hm : s.momentAt cycle = some m) (ho : occasion m = false) : onCycle s cycle occasion f = .next s := by
  have hat : s.atCycle cycle occasion f = s := by
    simp only [State.atCycle, hm]
    exact if_neg (by simp [ho])
  rw [onCycle, onEvent_taken s true _ hr.1 rfl, hat, finish_quiet s hr.2]

/-! ## Bytes received whole (R167 to R169) -/

theorem receive_malformed {s : State} (m : Nat) {bs : Bytes} (hl : s.listening = true) (hp : parseTelegram bs = none) :
    s.receive m bs = (s.lineBit m).stepDiscards := by
  have hreceiving : (s.lineBit m).receiving = true := hl
  simp only [State.receive, if_pos hreceiving, hp]

/-- A telegram of this node's own number is discarded. -/
theorem receive_own {s : State} (m : Nat) {bs : Bytes} {t : Telegram} (hl : s.listening = true)
    (hp : parseTelegram bs = some t) (hown : t.sender = s.cfg.node) :
    s.receive m bs = (s.lineBit m).stepDiscards := by
  have hreceiving : (s.lineBit m).receiving = true := hl
  simp only [State.receive, if_pos hreceiving, hp]
  exact if_pos (beq_iff_eq.mpr hown)

/-- Another node's telegram goes to the filter. -/
theorem receive_other {s : State} (m : Nat) {bs : Bytes} {t : Telegram} (hl : s.listening = true)
    (hp : parseTelegram bs = some t) (hother : t.sender ≠ s.cfg.node) :
    s.receive m bs = (s.lineBit m).joinRx t bs := by
  have hreceiving : (s.lineBit m).receiving = true := hl
  simp only [State.receive, if_pos hreceiving, hp]
  exact if_neg (by simpa using hother)

theorem joinRx_stopped {s : State} {t : Telegram} (bs : Bytes) (ha : s.admits t = false) : s.joinRx t bs = s :=
  if_neg (by simp [ha])

theorem joinRx_joined {s : State} {t : Telegram} (bs : Bytes) (ha : s.admits t = true) (hfree : s.lbc.rx.length < rxRoom) :
    s.joinRx t bs = { s with lbc := { s.lbc with rx := s.lbc.rx ++ [s.received t bs] } } :=
  (if_pos ha).trans (if_pos hfree)

theorem joinRx_lost {s : State} {t : Telegram} (bs : Bytes) (ha : s.admits t = true) (hfull : rxRoom ≤ s.lbc.rx.length) :
    s.joinRx t bs = s.stepOverruns :=
  (if_pos ha).trans (if_neg (Nat.not_lt.mpr hfull))

/-- TELEGRAM_RECEIVED of bytes that end where a telegram ends, whose effect leaves nothing to take. -/
theorem execTelegramReceived_taken {s v : State} {cycle m : Nat} {bs : Bytes} (hr : s.Ready)
    (hm : s.momentAt cycle = some m) (hw : isWhole bs = true)
    (he : ({ s with refMoment := m } : State).receive m bs = v) (hq : v.Quiet) :
    exec (.telegramReceived cycle bs) s = .next v := by
  refine (onCycle_taken (fun m u => u.receive m bs) hr hm hw).trans ?_
  simp only [he, finish_quiet v hq]

/-! ## Fragments (R200) -/

theorem receiveFragment_listening {s : State} (m : Nat) (hl : s.listening = true) :
    s.receiveFragment m = (s.lineBit (m - 24)).stepDiscards := if_pos hl

theorem execFragment_taken {s : State} {cycle m : Nat} {bs : Bytes} (hr : s.Ready) (hm : s.momentAt cycle = some m)
    (hl : s.listening = true) (hf : isFragment bs = true) (hq : 12 ≤ bitTimes s.lbc.lastBit m) :
    exec (.fragment cycle bs) s = .next ((({ s with refMoment := m } : State).lineBit (m - 24)).stepDiscards) := by
  have ho : (isFragment bs && s.fragmentOver m) = true := by simp [hf, State.fragmentOver, hq]
  refine (onCycle_taken (fun m u => u.receiveFragment m) hr hm ho).trans ?_
  rw [receiveFragment_listening (s := { s with refMoment := m }) m hl]
  exact congrArg _ (finish_quiet _ hr.2)

/-- Bytes that stop at their length, or a line not quiet for 12 bit times, give no fragment. -/
theorem execFragment_passed {s : State} {cycle m : Nat} {bs : Bytes} (hr : s.Ready) (hm : s.momentAt cycle = some m)
    (h : isFragment bs = false ∨ bitTimes s.lbc.lastBit m < 12) : exec (.fragment cycle bs) s = .next s := by
  have ho : (isFragment bs && s.fragmentOver m) = false := by
    rcases h with h | h <;> simp [h, State.fragmentOver]
  exact onCycle_passed (fun m u => u.receiveFragment m) hr hm ho

/-- Settles O51: a fragment by the quiet before it, whole bytes by what they parse to, whose they are and the filter. -/
theorem receivedTelegramsAreFiltered : Obligations.ReceivedTelegramsAreFiltered := by
  intro cycle m bs s hr hm hl u counted discarded
  have filtered : ∀ t, parseTelegram bs = some t → t.sender ≠ s.cfg.node →
      ({ s with refMoment := m } : State).receive m bs = u.joinRx t bs := fun t hp hother =>
    receive_other (s := { s with refMoment := m }) m hl hp hother
  refine ⟨fun hf hq => execFragment_taken hr hm hl hf hq, fun h => execFragment_passed hr hm h,
    fun hw hp => execTelegramReceived_taken hr hm hw (receive_malformed m hl hp) hr.2, fun t hw hp => ⟨fun hown => ?_,
    fun hother ha => ?_, fun hother ha hfree => ?_, fun hother ha hfull => ?_⟩⟩
  · exact execTelegramReceived_taken hr hm hw (receive_own m hl hp hown) hr.2
  · exact execTelegramReceived_taken hr hm hw ((filtered t hp hother).trans (joinRx_stopped bs ha)) hr.2
  · exact execTelegramReceived_taken hr hm hw ((filtered t hp hother).trans (joinRx_joined bs ha hfree)) hr.2
  · exact execTelegramReceived_taken hr hm hw ((filtered t hp hother).trans (joinRx_lost bs ha hfull)) hr.2

theorem execWarmStart_taken {s : State} (hr : s.Ready) (hready : s.cfl.restart = .ready) :
    execWarmStart s = .next (finish s.warmState.enterListen) :=
  onEvent_taken s _ _ hr.1 (by simp [hready])

/-- Settles O52: the bound over every step, the telegram lost, and the queue after each start. -/
theorem receiveQueueHoldsTwentyFour : Obligations.ReceiveQueueHoldsTwentyFour := by
  refine ⟨fun s t hs h => ?_, fun cycle m bs x s hr hm hl hw hp hother ha hfull => ?_, fun s t h => ?_,
    fun s t hhigh h => ?_, fun s t hr hready h => ?_⟩
  · exact step_preserves (·.lbc.rx.length ≤ rxRoom) (fun _ hu => hu) (fun _ _ _ hu hv => exec_rx_room hv hu) hs h
  · obtain ⟨_, _, _, hparsed⟩ := receivedTelegramsAreFiltered cycle m bs s hr hm hl
    obtain ⟨_, _, _, hlost⟩ := hparsed x hw hp
    exact hlost hother ha (Nat.le_of_eq hfull.symm)
  · cases h
    rfl
  · cases h
    exact congrArg (fun u : State => u.lbc.rx) (if_neg (by simp [hhigh]))
  · have hnext : execWarmStart s = .next t := h
    have ht : t = finish s.warmState.enterListen :=
      Host.Outcome.next.inj (hnext.symm.trans (execWarmStart_taken hr hready))
    exact ht ▸ (warmStart_fresh s).rx

end Sys2Proof.Machine
end

section
/-! PROOFS. Medium access: which head starts and when, how a start ends, the end of LINE_BUS_FAULT. -/

namespace Sys2Proof.Machine

open Sys2Proof

/-! ## The class that starts (R163, R164) -/

theorem startClass_alert {s : State} {m q : Nat} (h : s.headReady .alert m q = true) :
    s.startClass m q = some .alert := by simp [State.startClass, h]

theorem startClass_control {s : State} {m q : Nat} (ha : s.headReady .alert m q = false)
    (h : s.headReady .control m q = true) : s.startClass m q = some .control := by simp [State.startClass, ha, h]

theorem startClass_bulk {s : State} {m q : Nat} (ha : s.headReady .alert m q = false)
    (hc : s.headReady .control m q = false) (h : s.headReady .bulk m q = true) : s.startClass m q = some .bulk := by
  simp [State.startClass, ha, hc, h]

theorem blockGapOver_iff (s : State) (m : Nat) :
    s.blockGapOver m = true ↔ ∀ e, s.lbc.lastBlockEnd = some e → 64 ≤ bitTimes e m := by
  unfold State.blockGapOver
  cases s.lbc.lastBlockEnd <;> simp

theorem quietNeeded_eq (s : State) (c : TelegramClass) (x : TxItem) : s.quietNeeded c x =
    c.gap + (if x.backoff then 16 * backoffStep s.cfg.backoff s.cfg.node (x.attempts - 1) else 0) := by
  unfold State.quietNeeded
  split <;> rfl

/-- A head is ready after the quiet it needs, and a BULK head after the gap between blocks too. -/
theorem headReady_iff {s : State} {c : TelegramClass} {x : TxItem} {xs : List TxItem} (m q : Nat)
    (hq : s.lbc.queue c = x :: xs) :
    s.headReady c m q = true ↔ s.quietNeeded c x ≤ q ∧ (c = .bulk → s.blockGapOver m = true) := by
  simp only [State.headReady, hq, Bool.and_eq_true, decide_eq_true_eq, Bool.or_eq_true, bne_iff_ne, ne_eq,
    ← Decidable.imp_iff_not_or]

/-! ## TRANSMIT_START (R163, R166) -/

theorem transmit_starts {s : State} {m quiet : Nat} {c : TelegramClass} (echoed : Bool) (hspeak : s.speaking = true)
    (hidle : s.lbc.sending = none) (hc : s.startClass m (s.quietAt m quiet) = some c) :
    s.transmit m quiet echoed =
      if echoed then ((s.beginSending c m).lineBit m).echoHeard else (s.beginSending c m).lineBit m := by
  have hfree : (s.speaking && s.lbc.sending.isNone) = true := by simp [hspeak, hidle]
  have hclass : s.startClass m (min quiet (bitTimes s.lbc.lastBit m)) = some c := hc
  simp only [State.transmit, if_pos hfree, hclass]

theorem mayStart_eq {s : State} (m quiet : Nat) (hspeak : s.speaking = true) (hidle : s.lbc.sending = none) :
    s.mayStart m quiet = (s.startClass m (s.quietAt m quiet)).isSome := by
  simp [State.mayStart, hspeak, hidle]

/-- A class with a ready head starts, at the event's moment. -/
theorem execTransmitStart_starts {s u : State} {cycle m quiet : Nat} {c : TelegramClass} (echoed : Bool) (hr : s.Ready)
    (hm : s.momentAt cycle = some m) (hspeak : s.speaking = true) (hidle : s.lbc.sending = none)
    (hc : s.startClass m (s.quietAt m quiet) = some c)
    (hu : (({ s with refMoment := m } : State).beginSending c m).lineBit m = u) :
    exec (.transmitStart cycle quiet echoed) s = .next (if echoed then finish u.echoHeard else u) := by
  have ho : s.mayStart m quiet = true := by simp [mayStart_eq m quiet hspeak hidle, hc]
  refine (onCycle_taken (fun m u => u.transmit m quiet echoed) hr hm ho).trans ?_
  rw [transmit_starts (s := { s with refMoment := m }) echoed hspeak hidle hc, hu]
  cases echoed with
  | true => rfl
  | false => exact congrArg _ (finish_quiet u (hu ▸ hr.2))

/-- With no ready head nothing starts. -/
theorem execTransmitStart_waits {s : State} {cycle m quiet : Nat} (echoed : Bool) (hr : s.Ready)
    (hm : s.momentAt cycle = some m) (hspeak : s.speaking = true) (hidle : s.lbc.sending = none)
    (hc : s.startClass m (s.quietAt m quiet) = none) : exec (.transmitStart cycle quiet echoed) s = .next s :=
  onCycle_passed (fun m u => u.transmit m quiet echoed) hr hm (by simp [mayStart_eq m quiet hspeak hidle, hc])

/-- Settles O49: a start or none, the highest class first, and when a head is ready. -/
theorem highestReadyClassStarts : Obligations.HighestReadyClassStarts := by
  intro cycle m quiet echoed s hr hm hspeak hidle q
  refine ⟨fun c hc => execTransmitStart_starts echoed hr hm hspeak hidle hc rfl,
    fun hc => execTransmitStart_waits echoed hr hm hspeak hidle hc, startClass_alert, startClass_control,
    startClass_bulk, fun c x xs hq => ?_⟩
  rw [headReady_iff m q hq, quietNeeded_eq, blockGapOver_iff]

/-! ## Ends of a start (R164, R166) -/

theorem onLine_eq {s : State} {c : TelegramClass} {heard : Bool} (hs : s.lbc.sending = some (c, heard)) :
    s.onLine = heard := by simp only [State.onLine, hs]

theorem echoMissed_eq {s : State} {c : TelegramClass} {heard : Bool} (m : Nat) (hs : s.lbc.sending = some (c, heard)) :
    s.echoMissed m = (!heard && decide (24 ≤ bitTimes s.lbc.startedAt m)) := by simp only [State.echoMissed, hs]

/-- The end of sending leaves the queues. -/
theorem endSending_queue (s : State) (c : TelegramClass) : s.endSending.lbc.queue c = s.lbc.queue c := by
  cases c <;> rfl

theorem lineBit_queue (s : State) (m : Nat) (c : TelegramClass) : (s.lineBit m).lbc.queue c = s.lbc.queue c := by
  cases c <;> rfl

/-- A telegram sent whole leaves its queue, and a BULK one starts the gap between blocks. -/
theorem sentWhole_eq {s : State} {c : TelegramClass} {heard : Bool} {x : TxItem} {xs : List TxItem} (m : Nat)
    (hs : s.lbc.sending = some (c, heard)) (hq : s.lbc.queue c = x :: xs) :
    let v := s.endSending.lineBit m
    let w : State := { v with lbc := v.lbc.popHead c }
    s.sentWhole m =
      (if c = .bulk then ({ w with lbc := { w.lbc with lastBlockEnd := some m } } : State) else w).noteSent x.note := by
  simp only [State.sentWhole, hs, hq, beq_iff_eq]

/-- A head goes into backoff, or is dropped after 16 attempts. -/
theorem backOff_eq {s : State} {c : TelegramClass} {x : TxItem} {xs : List TxItem} (hq : s.lbc.queue c = x :: xs) :
    s.backOff c =
      if 16 ≤ x.attempts then (({ s with lbc := s.lbc.popHead c } : State).attemptDrop).noteDropped x.note
      else { s with lbc := s.lbc.updHead c (fun y => { y with attempts := y.attempts + 1, backoff := true }) } := by
  simp only [State.backOff, hq]

theorem collide_eq {s : State} {c : TelegramClass} {heard : Bool} (m : Nat) (hs : s.lbc.sending = some (c, heard)) :
    s.collide m = (s.endSending.lineBit m).backOff c := by simp only [State.collide, hs]

/-- A probe with no echo is discarded. -/
theorem faultEcho_probe {s : State} {c : TelegramClass} {x : TxItem} {xs : List TxItem}
    (hs : s.lbc.sending = some (c, false)) (hq : s.lbc.queue c = x :: xs) (hx : x.probe = true) :
    s.faultEcho = { s.endSending with lbc := s.endSending.lbc.popHead c } := by
  simp only [State.faultEcho, hs, hq, if_pos hx]

/-- An echo fault is counted, and the third in a row enters MUTE. -/
theorem faultEcho_counted {s : State} {c : TelegramClass} {x : TxItem} {xs : List TxItem}
    (hs : s.lbc.sending = some (c, false)) (hq : s.lbc.queue c = x :: xs) (hx : x.probe = false) :
    let b := s.endSending.backOff c
    let f : State := { b with lbc := { b.lbc with echoFaults := b.lbc.echoFaults + 1 } }
    s.faultEcho = if f.lbc.mute = false ∧ 3 ≤ f.lbc.echoFaults then f.enterMute else f := by
  simp only [State.faultEcho, hs, hq, hx, Bool.and_eq_true, Bool.not_eq_true', decide_eq_true_eq]
  exact if_neg nofun

/-! ## LINE_BUS_FAULT_QUIET_END (R165) -/

theorem quietOfDrops_iff (s : State) : s.quietOfDrops = true ↔ ∀ t ∈ s.lbc.dropTimes, t + 600 ≤ s.runTime := by
  simp [State.quietOfDrops]

theorem execLineBusFaultQuietEnd_ends {s : State} (hr : s.Ready) (hf : s.lbc.faultPresent = true)
    (hmute : s.lbc.mute = false) (hq : ∀ t ∈ s.lbc.dropTimes, t + 600 ≤ s.runTime) :
    exec .lineBusFaultQuietEnd s = .next (finish s.endLineFault) :=
  onEvent_taken s _ _ hr.1 (by simp [hf, hmute, (quietOfDrops_iff s).mpr hq])

theorem execLineBusFaultQuietEnd_passed {s : State}
    (h : (s.lbc.faultPresent && !s.lbc.mute && s.quietOfDrops) = false) : exec .lineBusFaultQuietEnd s = .next s :=
  onEvent_passed s _ _ (.inr h)

/-- Settles O50: each end by the echo seen or missed, then the end of the condition. -/
theorem startsEnd : Obligations.StartsEnd := by
  refine ⟨fun cycle m c heard x xs s hr hm hs hq => ?_, fun s hr => ⟨?_, ?_, ?_⟩⟩
  · intro u v back w
    have hqv : v.lbc.queue c = x :: xs := (lineBit_queue ..).trans ((endSending_queue ..).trans hq)
    have hqu : u.endSending.lbc.queue c = x :: xs := (endSending_queue ..).trans hq
    refine ⟨fun hheard => ?_, fun hunheard => ?_⟩
    · subst hheard
      refine ⟨?_, ?_, onCycle_passed (fun _ u => u.faultEcho) hr hm (echoMissed_eq m hs)⟩
      · refine (onCycle_taken (fun m u => u.sentWhole m) hr hm (onLine_eq hs)).trans ?_
        rw [sentWhole_eq (s := u) m hs hq]
      · refine (onCycle_taken (fun m u => u.collide m) hr hm (onLine_eq hs)).trans ?_
        rw [collide_eq (s := u) m hs, backOff_eq hqv]
    · subst hunheard
      have missed : s.echoMissed m = decide (24 ≤ bitTimes s.lbc.startedAt m) := echoMissed_eq m hs
      refine ⟨onCycle_passed (fun m u => u.sentWhole m) hr hm (onLine_eq hs),
        onCycle_passed (fun m u => u.collide m) hr hm (onLine_eq hs), fun hearly => ?_, fun hlate hx => ?_,
        fun hlate hx => ?_⟩
      · exact onCycle_passed (fun _ u => u.faultEcho) hr hm (by simpa [missed] using hearly)
      · refine (onCycle_taken (fun _ u => u.faultEcho) hr hm (by simpa [missed] using hlate)).trans ?_
        rw [faultEcho_probe (s := u) hs hq hx]
        exact congrArg _ (finish_quiet _ hr.2)
      · refine (onCycle_taken (fun _ u => u.faultEcho) hr hm (by simpa [missed] using hlate)).trans ?_
        rw [faultEcho_counted (s := u) hs hq hx, backOff_eq hqu]
  · exact fun hf hmute hquiet => execLineBusFaultQuietEnd_ends hr hf hmute hquiet
  · rintro ⟨t, ht, hrecent⟩
    have hloud : s.quietOfDrops = false :=
      Bool.eq_false_iff.mpr fun h => absurd ((quietOfDrops_iff s).mp h t ht) (by omega)
    exact execLineBusFaultQuietEnd_passed (by simp [hloud])
  · rintro (h | h) <;> exact execLineBusFaultQuietEnd_passed (by simp [h])

end Sys2Proof.Machine
end

section
/-! PROOFS. Plan transfers at a station node: opened, filled block by block, closed, timed out. -/

namespace Sys2Proof.Machine

open Sys2Proof

/-! ## PLAN_OPEN (R173) -/

section
variable {s : State} {sender planId blocks remainder : Nat}

/-- Another console's transfer is in progress. -/
def State.busyFor (s : State) (sender : Nat) : Prop :=
  s.lbc.planResult = .inProgress ∧ ∃ x, s.lbc.transfer = some x ∧ x.console ≠ sender

theorem busyFor_iff : s.busyFor sender ↔
    (s.lbc.planResult == .inProgress && s.lbc.transfer.any (fun x => x.console != sender)) = true := by
  unfold State.busyFor
  cases s.lbc.transfer <;> simp

/-- The opening may be taken: a turnback platform, 1 to 64 blocks, a remainder up to 7. -/
def State.opensPlan (s : State) (blocks remainder : Nat) : Prop :=
  s.hasTurnback = true ∧ 1 ≤ blocks ∧ blocks ≤ 64 ∧ remainder ≤ 7

theorem opensPlan_iff : s.opensPlan blocks remainder ↔
    ¬ (!s.hasTurnback || blocks < 1 || 64 < blocks || 7 < remainder) = true := by
  simp [State.opensPlan, Nat.one_le_iff_ne_zero, and_assoc]

/-- A PLAN_OPEN to a station node in RUNNING, by the tests in R173's order. -/
theorem takePlanOpen_running (hs : s.cfl.start = .running) (hrole : s.cfg.role = .station) :
    (s.consoleIndex sender = none →
      s.takePlanOpen sender planId blocks remainder = s.answerPlan sender 14 planId .denied) ∧
    (s.consoleIndex sender ≠ none → ¬ s.opensPlan blocks remainder →
      s.takePlanOpen sender planId blocks remainder = s.answerPlan sender 14 planId .refused) ∧
    (s.consoleIndex sender ≠ none → s.opensPlan blocks remainder → s.busyFor sender →
      s.takePlanOpen sender planId blocks remainder = s.answerPlan sender 14 planId .busy) ∧
    (s.consoleIndex sender ≠ none → s.opensPlan blocks remainder → ¬ s.busyFor sender →
      s.takePlanOpen sender planId blocks remainder =
        (s.openTransfer sender planId blocks remainder).answerPlan sender 14 planId .done) := by
  have hplace : ¬ (!s.isRunning || !s.isStation) = true := by simp [State.isRunning, State.isStation, hs, hrole]
  simp only [State.takePlanOpen, if_neg hplace, opensPlan_iff, busyFor_iff, Classical.not_not]
  refine ⟨fun hc => if_pos (by simp [hc]), fun hc hbad => ?_, fun hc hok hbusy => ?_, fun hc hok hfree => ?_⟩
  · rw [if_neg (by simpa using hc), if_pos hbad]
  · rw [if_neg (by simpa using hc), if_neg hok, if_pos hbusy]
  · rw [if_neg (by simpa using hc), if_neg hok, if_neg hfree]

theorem openTransfer_timed {v : State} {h : Handle}
    (e : (s.dropPlanTimer.clearStaging).requestTimer .plan 50 = (v, some h)) :
    s.openTransfer sender planId blocks remainder = { v with lbc := { v.lbc with
      transfer := some { console := sender, planId := planId, blocks := blocks, remainder := remainder, nextIndex := 0,
                         received := 0, timer := some h }
      planResult := .inProgress } } := by
  simp only [State.openTransfer, e]

/-- With no timer to be had the transfer is aborted at once. -/
theorem openTransfer_untimed {v : State} (e : (s.dropPlanTimer.clearStaging).requestTimer .plan 50 = (v, none)) :
    s.openTransfer sender planId blocks remainder = v.endTransfer .timedOut := by
  simp only [State.openTransfer, e]

end

theorem execPlanOpen_taken {s : State} {sender i n r : Nat} {ts : List Received} (hr : s.Ready)
    (hrole : s.cfg.role = .station)
    (hh : s.HeadIs { sender := sender, target := s.cfg.node, body := .planOpen i n r } ts) :
    exec .planOpen s = .next (finish ((s.withRx ts).takePlanOpen sender i n r)) :=
  onKind_station s _ _ _ ts hr.1 hrole hh rfl

/-! ## PLAN_BLOCK (R174) -/

section
variable {s : State} {x : Transfer} {sender planId : Nat}

/-- The block of an index is the one due, with the entry count it is to have. -/
def Transfer.due (x : Transfer) (index : Nat) (es : List PlanEntry) : Prop :=
  index = x.nextIndex ∧ index < x.blocks ∧ es.length = x.wanted index

theorem due_iff {index : Nat} {es : List PlanEntry} : x.due index es ↔
    (index == x.nextIndex && decide (index < x.blocks) && es.length == x.wanted index) = true := by
  simp [Transfer.due, and_assoc]

/-- The block due is staged, and the timer is loaded again. -/
theorem takePlanBlock_due {h : Handle} {index : Nat} {es : List PlanEntry} (hx : s.planOf sender planId = some x)
    (ht : x.timer = some h) (hdue : x.due index es) :
    s.takePlanBlock sender planId index es =
      ({ es.foldl State.stage s with lbc := { (es.foldl State.stage s).lbc with
          transfer := some { x with nextIndex := x.nextIndex + 1, received := x.received + es.length } } } : State).reloadTimer
        h 50 := by
  simp only [State.takePlanBlock, hx, if_pos (due_iff.mp hdue), ht]

theorem takePlanBlock_undue {index : Nat} {es : List PlanEntry} (hx : s.planOf sender planId = some x)
    (hdue : ¬ x.due index es) : s.takePlanBlock sender planId index es = s.rejectTransfer := by
  simp only [State.takePlanBlock, hx, if_neg (mt due_iff.mpr hdue)]

/-! ## PLAN_CLOSE (R175) -/

/-- A closing agrees with a transfer: every block came, and its count is the announced one. -/
def Transfer.agrees (x : Transfer) (total : Nat) : Prop :=
  x.nextIndex = x.blocks ∧ x.received = x.announced ∧ total = x.announced

theorem agrees_iff {total : Nat} : x.agrees total ↔
    (x.nextIndex == x.blocks && x.received == x.announced && total == x.announced) = true := by
  simp [Transfer.agrees, and_assoc]

theorem takePlanClose_applied {v : State} {total : Nat} (hx : s.planOf sender planId = some x) (ha : x.agrees total)
    (e : s.applyStaging = (v, true)) :
    s.takePlanClose sender planId total = (v.closeTransfer .done).answerPlan sender 15 planId .done := by
  simp only [State.takePlanClose, hx, if_pos (agrees_iff.mp ha), e]

theorem takePlanClose_unapplied {v : State} {total : Nat} (hx : s.planOf sender planId = some x) (ha : x.agrees total)
    (e : s.applyStaging = (v, false)) :
    s.takePlanClose sender planId total = v.rejectTransfer.answerPlan sender 15 planId .refused := by
  simp only [State.takePlanClose, hx, if_pos (agrees_iff.mp ha), e]

theorem takePlanClose_disagrees {total : Nat} (hx : s.planOf sender planId = some x) (ha : ¬ x.agrees total) :
    s.takePlanClose sender planId total = s.rejectTransfer.answerPlan sender 15 planId .refused := by
  simp only [State.takePlanClose, hx, if_neg (mt agrees_iff.mpr ha)]

end

theorem execPlanBlock_taken {s : State} {sender i k : Nat} {es : List PlanEntry} {ts : List Received} (hr : s.Ready)
    (hrole : s.cfg.role = .station)
    (hh : s.HeadIs { sender := sender, target := s.cfg.node, body := .planBlock i k es } ts) :
    exec .planBlock s = .next (finish ((s.withRx ts).takePlanBlock sender i k es)) :=
  onKind_station s _ _ _ ts hr.1 hrole hh rfl

theorem execPlanClose_taken {s : State} {sender i total : Nat} {ts : List Received} (hr : s.Ready)
    (hrole : s.cfg.role = .station)
    (hh : s.HeadIs { sender := sender, target := s.cfg.node, body := .planClose i total } ts) :
    exec .planClose s = .next (finish ((s.withRx ts).takePlanClose sender i total)) :=
  onKind_station s _ _ _ ts hr.1 hrole hh rfl

/-! ## PLAN_TIMER_EXPIRY (R175) -/

theorem dropPlanTimer_held {s : State} {x : Transfer} {h : Handle} (hx : s.lbc.transfer = some x)
    (ht : x.timer = some h) : s.dropPlanTimer = s.releaseTimer h := by
  simp [State.dropPlanTimer, State.releaseOpt, hx, ht]

theorem execPlanTimerExpiry_taken {s : State} {x : Transfer} {h : Handle} (hr : s.Ready)
    (hx : s.lbc.transfer = some x) (ht : x.timer = some h) (hdue : s.expired h = true) :
    exec .planTimerExpiry s = .next (finish s.planExpires) :=
  onEvent_taken s _ _ hr.1 (by simp [hx, ht, State.expiredOpt, hdue])

/-- Settles O54: an opening by its tests and the timer had, a block by whether it is due, a closing by whether it
agrees and applies, the timer. -/
theorem plansAreTransferred : Obligations.PlansAreTransferred := by
  refine ⟨fun sender i n r ts s hr hrole hs hh => ?_, fun sender i k es h x ts s hr hrole hh hx ht => ?_,
    fun sender i total x ts s hr hrole hh hx => ?_, fun x h s hr hx ht hdue => ?_⟩
  · intro u ok busy
    rw [execPlanOpen_taken hr hrole hh]
    obtain ⟨denied, refused, answeredBusy, opened⟩ :=
      takePlanOpen_running (s := u) (sender := sender) (planId := i) (blocks := n) (remainder := r) hs hrole
    refine ⟨fun hc => by rw [denied hc], fun hc hbad => by rw [refused hc hbad],
      fun hc hok hbusy => by rw [answeredBusy hc hok hbusy], fun hc hok hfree => ?_⟩
    rw [opened hc hok hfree]
    rcases e : (u.dropPlanTimer.clearStaging).requestTimer .plan 50 with ⟨v, _ | h⟩
    · rw [openTransfer_untimed e]
    · rw [openTransfer_timed e]
  · intro u due v y
    rw [execPlanBlock_taken hr hrole hh]
    refine ⟨fun hdue => ?_, fun hundue => ?_⟩
    · rw [takePlanBlock_due (s := u) hx ht hdue]
    · rw [takePlanBlock_undue (s := u) hx hundue]
      rfl
  · intro u announced reject
    rw [execPlanClose_taken hr hrole hh]
    by_cases ha : x.nextIndex = x.blocks ∧ x.received = announced ∧ total = announced
    · rw [if_pos ha]
      rcases e : u.applyStaging with ⟨v, _ | _⟩
      · rw [takePlanClose_unapplied (s := u) hx ha e]
        rfl
      · rw [takePlanClose_applied (s := u) hx ha e]
        rfl
    · rw [if_neg ha, takePlanClose_disagrees (s := u) hx ha]
      rfl
  · rw [execPlanTimerExpiry_taken hr hx ht hdue, ← dropPlanTimer_held hx ht]
    rfl

end Sys2Proof.Machine
end

section
/-! PROOFS. Raw level changes of the track inputs: the pin, and the candidate of a sampled input. -/

namespace Sys2Proof.Machine

open Sys2Proof

/-! ## Candidates (R178) -/

/-- A raw level change discards the candidate at a return to the accepted level, and starts a new one otherwise. -/
theorem rawChange_eq (s : State) (i m : Nat) (active : Bool) :
    s.rawChange i m active = s.updTrack i (fun t => { t with
      candidate := if t.accepted = some active then none
        else some { active := active, began := m, stamp := s.tiu.clock } }) := by
  unfold State.rawChange
  refine congrArg (s.updTrack i) (funext fun t => ?_)
  cases ha : t.accepted with
  | none => simp [State.now]
  | some a => by_cases h : a = active <;> simp [h, State.now]

/-- The level of a sampled input's pin is taken, and the filter sees it by the input's polarity. -/
theorem pinChange_sampled {s : State} {i : Nat} (m : Nat) {high : Bool} (hi : i < 8)
    (hpin : s.pins.trk.getD i false ≠ high) (hs : s.sampled i = true) :
    s.pinChange i m high =
      ({ s with pins := { s.pins with trk := s.pins.trk.set i high } } : State).rawChange i m (s.isActive i high) := by
  have hsampled : ({ s with pins := { s.pins with trk := s.pins.trk.set i high } } : State).sampled i = true := hs
  rw [State.pinChange, if_pos ⟨hi, hpin⟩]
  exact if_pos hsampled

/-- TRACK_INPUT_CHANGE at a moment of the present tick, of a pin that has the other level. -/
theorem execTrackInputChange_taken {s : State} {i cycle m : Nat} {high : Bool} (hi : i < 8)
    (hm : s.momentAt cycle = some m) (hpin : s.pins.trk.getD i false ≠ high) :
    exec (.trackInputChange i cycle high) s =
      .next (({ s with refMoment := m } : State).pinChange i m high) := by
  have ho : (decide (i < 8) && s.pins.trk.getD i false != high) = true := by
    rw [decide_eq_true hi, Bool.true_and, bne_iff_ne]
    exact hpin
  show execTrackInputChange i cycle high s = _
  simp only [execTrackInputChange, State.atCycle, hm, if_pos ho]

/-- Settles O18: the pin first, then the candidate by the level accepted. -/
theorem trackChangeMovesTheCandidate : Obligations.TrackChangeMovesTheCandidate := by
  intro i cycle m high s hi hm hpin hs active fresh
  rw [execTrackInputChange_taken hi hm hpin, pinChange_sampled (s := { s with refMoment := m }) m hi hpin hs,
    rawChange_eq]
  rfl

end Sys2Proof.Machine
end

section
/-! PROOFS. The Directive Checker's tests in R189's order. -/

namespace Sys2Proof.Machine

open Sys2Proof

/-! ## The checks (R189) -/

section
variable {s : State} {i level sender serial : Nat} {d : Directive}

theorem takeDirective_rebuild (hs : s.cfl.start = .rebuild) :
    s.takeDirective sender serial d = s.sendAnswer sender (answerTo serial d .busy) := by
  simp only [State.takeDirective, hs]

/-- A sender outside the authority table is DENIED, and no answer is stored. -/
theorem takeDirective_stranger (hs : s.cfl.start = .running) (hi : s.consoleIndex sender = none) :
    s.takeDirective sender serial d = s.sendAnswer sender (answerTo serial d .denied) := by
  simp only [State.takeDirective, hs, hi]

/-- A serial answered before has the stored answer again. -/
theorem takeDirective_again {b : AnswerBody} (hs : s.cfl.start = .running) (hi : s.consoleIndex sender = some i)
    (hb : s.storedAnswer i serial = some b) : s.takeDirective sender serial d = s.sendAnswer sender b := by
  simp only [State.takeDirective, hs, hi, hb]

/-- A new serial of a sender in the table goes to steps 3 to 6, with the sender's level. -/
theorem takeDirective_new {c : ConsoleCfg} (hs : s.cfl.start = .running) (hi : s.consoleIndex sender = some i)
    (hb : s.storedAnswer i serial = none) (hc : s.cfg.consoles[i]? = some c) :
    s.takeDirective sender serial d = s.checkDirective i c.level sender serial d := by
  simp only [State.takeDirective, hs, hi, hb, hc]

theorem checkDirective_unknown (hu : d.isUnknown = true) :
    s.checkDirective i level sender serial d = s.answered i sender serial d .refused := if_pos hu

theorem checkDirective_tooLow (hu : d.isUnknown = false) (hl : level < d.level) :
    s.checkDirective i level sender serial d = s.answered i sender serial d .denied := by
  rw [State.checkDirective, if_neg (by simp [hu]), if_pos hl]
  rfl

theorem checkDirective_zero (hu : d.isUnknown = false) (hl : d.level ≤ level) (hz : d.zeroGiven = true) :
    s.checkDirective i level sender serial d = s.answered i sender serial d .refused := by
  rw [State.checkDirective, if_neg (by simp [hu]), if_neg (Nat.not_lt.mpr hl), if_pos hz]
  rfl

/-- A directive that passes steps 3 to 5 is its owner's, clamped. -/
theorem checkDirective_passed (hu : d.isUnknown = false) (hl : d.level ≤ level) (hz : d.zeroGiven = false) :
    s.checkDirective i level sender serial d = s.ownerStep i sender serial (clampDirective level d) := by
  rw [State.checkDirective, if_neg (by simp [hu]), if_neg (Nat.not_lt.mpr hl), if_neg (by simp [hz])]

/-- RESTART_NODE is answered DONE; its warm start waits for that ANSWER when none is pending (R196). -/
theorem ownerStep_restartNode (hr : s.cfl.restart = .idle) :
    s.ownerStep i sender serial .restartNode =
      ({ s.storeAnswer i (answerTo serial .restartNode .done) with
        cfl := { s.cfl with restart := .waiting } } : State).sendAnswer sender (answerTo serial .restartNode .done)
          .restart := by
  have hidle : ((s.storeAnswer i (answerTo serial .restartNode .done)).cfl.restart == .idle) = true := beq_iff_eq.mpr hr
  have ho : (s.storeAnswer i (answerTo serial .restartNode .done)).orderRestart .restartNode =
      ({ s.storeAnswer i (answerTo serial .restartNode .done) with cfl := { s.cfl with restart := .waiting } },
        .restart) := if_pos hidle
  exact congrArg (fun x : State × TxNote => x.1.sendAnswer sender (answerTo serial .restartNode .done) x.2) ho

/-- A DIRECTIVE of the kind wanted at the head of a station node's receive queue is taken. -/
theorem onDirectiveKind_taken {want : Directive → Bool} {ts : List Received} (hr : s.Ready)
    (hrole : s.cfg.role = .station)
    (hh : s.HeadIs { sender := sender, target := s.cfg.node, body := .directive serial d } ts) (hw : want d = true) :
    onDirectiveKind s want = .next (finish ((s.withRx ts).takeDirective sender serial d)) :=
  onKind_station s (isDirective want) _ _ ts hr.1 hrole hh hw

/-- The command of a directive's kind takes directives of that kind. -/
theorem exec_command (s : State) (d : Directive) :
    ∃ want : Directive → Bool, exec d.command s = onDirectiveKind s want ∧ want d = true := by
  cases d with
  | _ => simp only [Directive.command, exec]; exact ⟨_, rfl, rfl⟩

theorem execDirective_taken {ts : List Received} (hr : s.Ready) (hrole : s.cfg.role = .station)
    (hh : s.HeadIs { sender := sender, target := s.cfg.node, body := .directive serial d } ts) :
    exec d.command s = .next (finish ((s.withRx ts).takeDirective sender serial d)) := by
  obtain ⟨want, he, hw⟩ := exec_command s d
  rw [he, onDirectiveKind_taken hr hrole hh hw]

end

/-- Settles O58, test by test in R189's order. -/
theorem directivesAreChecked : Obligations.DirectivesAreChecked := by
  intro sender serial d ts s hr hrole hh u answer gives
  have taken : ∀ {v : State}, u.takeDirective sender serial d = v → gives v := fun he =>
    he ▸ execDirective_taken hr hrole hh
  refine ⟨fun hs => taken (takeDirective_rebuild hs), fun hs hi => taken (takeDirective_stranger hs hi),
    fun i b hs hi hb => taken (takeDirective_again hs hi hb), fun i c hs hi hb hc => ?_⟩
  have checked : ∀ {v : State}, u.checkDirective i c.level sender serial d = v → gives v := fun he =>
    taken ((takeDirective_new (s := u) hs hi hb hc).trans he)
  refine ⟨fun hu => checked (checkDirective_unknown hu), fun hu hl => checked (checkDirective_tooLow hu hl),
    fun hu hl hz => checked (checkDirective_zero hu hl hz), ?_, ?_⟩
  · rintro rfl hl
    exact checked (checkDirective_passed rfl hl rfl)
  · rintro rfl hl hidle
    exact checked ((checkDirective_passed rfl hl rfl).trans (ownerStep_restartNode (s := u) hidle))

end Sys2Proof.Machine
end

section
/-! PROOFS. The orders of a console's workstation. -/

namespace Sys2Proof.Machine

open Sys2Proof

/-! ## Reports at the head of the FIFO (R182) -/

/-- A report of the kind wanted at the head of the report FIFO leaves it and is taken. -/
theorem onReport_head {s : State} {want : Report → Bool} {r : Report} {rs : List Report} (f : Report → State → State)
    (hr : s.Ready) (hs : s.slc.reports = r :: rs) (hw : want r = true) :
    onReport s want f = .next (finish (f r { s with slc := { s.slc with reports := rs } })) := by
  have ho : s.reportHead want = true := by simp only [State.reportHead, hs, hw]
  rw [onReport, onEvent_taken s _ _ hr.1 ho]
  simp only [State.takeReport, hs, if_pos hw]

/-! ## The workstation (R187) -/

section
variable {s : State}

theorem workstation_notRunning (r : Report) (hs : s.cfl.start ≠ .running) :
    s.workstation r = s.view (.result (orderCode r) .busy) := if_neg (by simpa [State.isRunning] using hs)

theorem workstation_running (r : Report) (hs : s.cfl.start = .running) : s.workstation r = s.takeOrder r :=
  if_pos (beq_iff_eq.mpr hs)

/-- A DIRECTIVE of the workstation, by its target (R187). -/
theorem workstation_directive (t n : Nat) (d : Directive) :
    s.workstation (.directive t n d) =
      if s.cfl.start ≠ .running then s.view (.result 0 .busy)
      else if t = 0 then s.view (.result 0 .refused)
      else if t = s.cfg.node then s.takeDirective s.cfg.node n d
      else s.send t (.directive n d) := by
  by_cases hs : s.cfl.start = .running
  · rw [workstation_running _ hs, if_neg (Classical.not_not.mpr hs)]
    simp only [State.takeOrder, beq_iff_eq]
    rfl
  · rw [workstation_notRunning _ hs, if_pos hs]
    rfl

/-- PLAN_CLEAR empties the buffer of a plan that is not being sent. -/
theorem workstation_planClear :
    s.workstation .planClear =
      if s.cfl.start ≠ .running ∨ s.lbc.outPlan.isSome then s.view (.result 1 .busy)
      else ({ s with ttu := { s.ttu with launch := [] } } : State).view (.result 1 .done) := by
  by_cases hs : s.cfl.start = .running
  · rw [workstation_running _ hs]
    simp only [hs, ne_eq, not_true_eq_false, false_or]
    rfl
  · rw [workstation_notRunning _ hs, if_pos (.inl hs)]
    rfl

/-- PLAN_ENTRY: the buffer's room is looked at before the plan being sent (R187). -/
theorem workstation_planEntry (e : PlanEntry) :
    s.workstation (.planEntry e) =
      if s.cfl.start ≠ .running then s.view (.result 2 .busy)
      else if 512 ≤ s.ttu.launch.length then s.view (.result 2 .refused)
      else if s.lbc.outPlan.isSome then s.view (.result 2 .busy)
      else (s.appendEntry e).view (.result 2 .done) := by
  by_cases hs : s.cfl.start = .running
  · rw [workstation_running _ hs, if_neg (Classical.not_not.mpr hs)]
    rfl
  · rw [workstation_notRunning _ hs, if_pos hs]
    rfl

/-- PLAN_SEND hands the opening of the plan in the buffer. -/
theorem workstation_planSend (t i : Nat) :
    s.workstation (.planSend t i) =
      if s.cfl.start ≠ .running ∨ s.lbc.outPlan.isSome then s.view (.result 3 .busy)
      else if s.ttu.launch = [] then s.view (.result 3 .refused)
      else (s.handStage { target := t, planId := i, stage := .opening }).view (.result 3 .done) := by
  by_cases hs : s.cfl.start = .running
  · rw [workstation_running _ hs]
    simp only [State.takeOrder, hs, ne_eq, not_true_eq_false, false_or, List.isEmpty_iff]
    rfl
  · rw [workstation_notRunning _ hs, if_pos (.inl hs)]
    rfl

end

/-- Settles O57, order by order. -/
theorem workstationOrdersAreTaken : Obligations.WorkstationOrdersAreTaken := by
  intro r rs s hr hs u
  have taken : ∀ {want : Report → Bool} {v : State}, want r = true → u.workstation r = v →
      onReport s want (fun r v => v.workstation r) = .next (finish v) :=
    fun hw he => he ▸ onReport_head (fun r v => v.workstation r) hr hs hw
  refine ⟨?_, ?_, ?_, ?_⟩
  · rintro t n d rfl
    exact taken rfl (workstation_directive t n d)
  · rintro rfl
    exact taken rfl workstation_planClear
  · rintro e rfl
    exact taken rfl (workstation_planEntry e)
  · rintro t i rfl
    exact taken rfl (workstation_planSend t i)

end Sys2Proof.Machine
end

section
/-! PROOFS. The station link: valid frames, silence and breaks, and the commands that follow a frame sent. -/

namespace Sys2Proof.Machine

open Sys2Proof

/-! ## The link (R180, R181) -/

section
variable {s : State}

theorem restoreLink_up (hl : s.slc.link = .up) : s.restoreLink = s := by
  simp only [State.restoreLink, hl]

/-- A link LOST comes UP with a RESTORE sweep asked (R181). -/
theorem restoreLink_lost (hl : s.slc.link = .lost) :
    s.restoreLink = ((({ s with slc := { s.slc with link := .up } } : State).requestSweep .restore).post
      (.condEnd .stationLinkLost Loc.none)).post .holdRecompute := by
  simp only [State.restoreLink, hl]

/-- The restoring of the link leaves the constants. -/
theorem restoreLink_cfg (s : State) : s.restoreLink.cfg = s.cfg :=
  congrArg Outside.cfg (restoreLink_outside s)

/-- A link UP becomes LOST: every point stale, the sweep IDLE, the RGE and the INU told (R180). -/
theorem loseLink_up (hl : s.slc.link = .up) :
    s.loseLink = (({ s with slc := { s.slc with
        link := .lost
        image := s.slc.image.map (fun v => { v with stale := true })
        sweep := .idle
        again := if s.slc.sweep = .idle then s.slc.again else false
        waitEnd := none } } : State).post .holdRecompute).raise .stationLinkLost Loc.none := by
  simp only [State.loseLink, hl, beq_iff_eq]

theorem execStationLinkBreak_taken (hr : s.Ready) (hl : s.slc.link = .up) :
    exec .stationLinkBreak s = .next (finish s.loseLink) :=
  onEvent_taken s _ State.loseLink hr.1 (beq_iff_eq.mpr hl)

theorem execStationLinkSilence_taken (hr : s.Ready) (hl : s.slc.link = .up) (ht : s.slc.lastValid + 30 ≤ s.runTime) :
    exec .stationLinkSilence s = .next (finish s.loseLink) :=
  onEvent_taken s _ State.loseLink hr.1 (by simp [hl, State.reached, ht])

/-- Before 30 have passed the link is left as it is. -/
theorem execStationLinkSilence_early (ht : s.runTime < s.slc.lastValid + 30) :
    exec .stationLinkSilence s = .next s :=
  onEvent_passed s _ State.loseLink (.inr (by simp [State.reached, ht]))

end

/-! ## Valid frames (R180 to R183) -/

section
variable {s : State}

/-- The time of the last valid frame is kept (R180). -/
def State.heardFrame (s : State) : State := { s with slc := { s.slc with lastValid := s.runTime } }

theorem frame_idle (s : State) : s.frame .idle = s.heardFrame.restoreLink := rfl

/-- A report in a frame is looked at when the link has been restored. -/
theorem frame_report (s : State) (r : Report) :
    s.frame (.report r) =
      if s.roleTakes r then s.heardFrame.restoreLink.joinReports r else s.heardFrame.restoreLink := by
  have hrole : s.heardFrame.restoreLink.roleTakes r = s.roleTakes r := by
    have hcfg : s.heardFrame.restoreLink.cfg = s.cfg := restoreLink_cfg s.heardFrame
    cases r <;> simp only [State.roleTakes, State.isStation, hcfg]
  rw [← hrole]
  rfl

theorem joinReports_free {r : Report} (h : s.slc.reports.length < 32) :
    s.joinReports r = { s with slc := { s.slc with reports := s.slc.reports ++ [r] } } := if_pos h

/-- A report that finds 32 there is lost and counted, and an OVERRUN sweep asked (R183). -/
theorem joinReports_full {r : Report} (h : 32 ≤ s.slc.reports.length) :
    s.joinReports r =
      ({ s with slc := { s.slc with lostReports := min 65535 (s.slc.lostReports + 1) } } : State).requestSweep
        .overrun :=
  if_neg (Nat.not_lt.mpr h)

theorem execValidFrame_taken {bytes : Bytes} {f : InFrame} (hr : s.Ready) (hp : parseFrame bytes = some f) :
    exec (.validFrame bytes) s = .next (finish (s.frame f)) := by
  have he : exec (.validFrame bytes) s = onEvent s true (fun u => u.frame f) := by
    show execValidFrame bytes s = _
    simp only [execValidFrame, hp]
  rw [he, onEvent_taken s true _ hr.1 rfl]

end

/-! ## The command FIFO (R185, R186) -/

/-- What a noted frame brings leaves the SLC and the requests alone. -/
theorem restartGone_rest (s : State) (n : TxNote) :
    (s.restartGone n).slc = s.slc ∧ (s.restartGone n).work = s.work ∧ (s.restartGone n).inu = s.inu := by
  cases n with
  | restart =>
    unfold State.restartGone
    dsimp only
    split
    · exact ⟨rfl, rfl, rfl⟩
    · exact ⟨rfl, rfl, rfl⟩
  | none | plan => exact ⟨rfl, rfl, rfl⟩

/-- A full FIFO takes no held command. -/
theorem fillPlaces_full {s : State} (n : Nat) (h : 32 ≤ s.slc.cmds.length) : State.fillPlaces n s = s := by
  cases n with
  | zero => rfl
  | succ n => exact if_neg (Nat.not_lt.mpr h)

/-- A held urgent command that is the oldest takes a free place, and is no display line. -/
theorem fillPlaces_urgent {s : State} (n : Nat) {c : FieldCmd} {cs : List FieldCmd} (hfree : s.slc.cmds.length < 32)
    (hheld : s.slc.held = c :: cs) (hu : c.urgent = true) :
    State.fillPlaces (n + 1) s =
      State.fillPlaces n (({ s with slc := { s.slc with held := cs } } : State).placeBy placeWaiting c) := by
  have hnext : nextHeld s.slc.held = some c := by simp [nextHeld, hheld, hu]
  have hstale : s.staleDisplay c = false := by
    cases c with
    | display p l => exact absurd hu (by simp [FieldCmd.urgent])
    | authority | breaker | sweepAsk | view => rfl
  rw [State.fillPlaces, if_pos hfree]
  simp only [hnext]
  rw [if_neg (by simp [hstale]), hheld, List.erase_cons_head]

/-- An urgent command is placed behind the urgent ones that lead; the held ones stay. -/
theorem placeBy_urgent (s : State) {c : FieldCmd} (hu : c.urgent = true) :
    (s.placeBy placeWaiting c).slc = { s.slc with
      cmds := s.slc.cmds.takeWhile (·.cmd.urgent) ++
        { cmd := s.asPlaced c, note := .none } :: s.slc.cmds.dropWhile (·.cmd.urgent) } := by
  have hplaced : (s.asPlaced c).urgent = true := by
    cases c with
    | sweepAsk => rfl
    | authority | breaker | display | view => exact hu
  rw [← placeWaiting_urgent { cmd := s.asPlaced c, note := .none } _ hplaced]
  cases c with
  | _ => rfl

/-- Where one place is free the oldest held command takes it, if urgent, and the FIFO is full (R185). -/
theorem fillPlaces_lastPlace {s : State} (n : Nat) {c : FieldCmd} {cs : List FieldCmd} (hlen : s.slc.cmds.length = 31)
    (hheld : s.slc.held = c :: cs) (hu : c.urgent = true) :
    (State.fillPlaces (n + 1) s).slc = { s.slc with
      held := cs
      cmds := s.slc.cmds.takeWhile (·.cmd.urgent) ++
        { cmd := s.asPlaced c, note := .none } :: s.slc.cmds.dropWhile (·.cmd.urgent) } := by
  have hplaced := placeBy_urgent ({ s with slc := { s.slc with held := cs } } : State) hu
  have hfull : (({ s with slc := { s.slc with held := cs } } : State).placeBy placeWaiting c).slc.cmds.length = 32 := by
    rw [hplaced, List.length_append, List.length_cons, ← Nat.add_assoc, ← List.length_append,
      List.takeWhile_append_dropWhile, hlen]
  rw [fillPlaces_urgent n (hlen ▸ by decide) hheld hu, fillPlaces_full n (Nat.le_of_eq hfull.symm), hplaced]
  cases c with
  | _ => rfl

/-- The head command leaves, and held ones take the free places. -/
theorem execCommandFrameSent_taken {s : State} {x : CmdItem} {xs : List CmdItem} (hr : s.Ready)
    (hx : s.slc.cmds = x :: xs) :
    exec .commandFrameSent s = .next (finish (State.fillPlaces s.slc.held.length
      (({ s with slc := { s.slc with cmds := xs } } : State).restartGone x.note))) := by
  have hsent : s.commandSent = State.fillPlaces s.slc.held.length
      (({ s with slc := { s.slc with cmds := xs } } : State).restartGone x.note) := by
    obtain ⟨hslc, -, -⟩ := restartGone_rest { s with slc := { s.slc with cmds := xs } } x.note
    simp only [State.commandSent, hx, hslc]
  rw [← hsent]
  exact onEvent_taken s _ State.commandSent hr.1 (by simp [hx])

/-- Settles O55: frames by the link and the report they bring, the link's two losses, the commands held. -/
theorem stationLinkIsWatched : Obligations.StationLinkIsWatched := by
  intro s hr u lost restored
  have hrestored : s.slc.link = .lost → s.heardFrame.restoreLink = restored := fun hl =>
    restoreLink_lost (s := s.heardFrame) hl
  have hup : s.slc.link = .up → s.heardFrame.restoreLink = u := fun hl => restoreLink_up (s := s.heardFrame) hl
  refine ⟨fun bytes hp hl => ?_, fun bytes hp hl => ?_, fun bytes r hp hl => ?_, fun bytes r hp hl ht hfree => ?_,
    fun bytes r hp hl ht hfull => ?_, fun bytes r hp hl ht => ?_, fun hl => ?_, fun hl ht => ?_, fun _ ht => ?_,
    fun x xs hx hheld => ?_, fun x xs hx => ?_, fun x xs c cs hx hlen hheld hurgent => ?_⟩
  · rw [execValidFrame_taken hr hp, frame_idle, hup hl]
    exact congrArg _ (finish_quiet u hr.2)
  · rw [execValidFrame_taken hr hp, frame_idle, hrestored hl]
  · rw [execValidFrame_taken hr hp, frame_report, hrestored hl]
  · rw [execValidFrame_taken hr hp, frame_report, if_pos ht, hup hl, joinReports_free (s := u) hfree]
    exact congrArg _ (finish_quiet _ hr.2)
  · rw [execValidFrame_taken hr hp, frame_report, if_pos ht, hup hl, joinReports_full (s := u) hfull]
  · rw [execValidFrame_taken hr hp, frame_report, if_neg (by simp [ht]), hup hl]
    exact congrArg _ (finish_quiet u hr.2)
  · rw [execStationLinkBreak_taken hr hl, loseLink_up hl]
  · rw [execStationLinkSilence_taken hr hl ht, loseLink_up hl]
  · exact execStationLinkSilence_early ht
  · obtain ⟨-, hwork, hinu⟩ := restartGone_rest { s with slc := { s.slc with cmds := xs } } x.note
    rw [execCommandFrameSent_taken hr hx, hheld]
    exact congrArg _ (finish_quiet _ ⟨hwork.trans hr.2.1, (congrArg Inu.dirty hinu).trans hr.2.2⟩)
  · exact execCommandFrameSent_taken hr hx
  · intro placed
    obtain ⟨hslc, -, -⟩ := restartGone_rest { s with slc := { s.slc with cmds := xs } } x.note
    have hcmd := execCommandFrameSent_taken hr hx
    generalize ({ s with slc := { s.slc with cmds := xs } } : State).restartGone x.note = w at hslc hcmd
    have hasPlaced : w.asPlaced c = placed := by
      have hlost : w.slc.lostReports = s.slc.lostReports := by rw [hslc]
      cases c with
      | sweepAsk y _ => exact congrArg (FieldCmd.sweepAsk y) hlost
      | authority | breaker | display | view => rfl
    rw [hheld, List.length_cons] at hcmd
    have hlast := fillPlaces_lastPlace cs.length (s := w) (by rw [hslc, hlen]) (by rw [hslc, hheld]) hurgent
    rw [hasPlaced, hslc] at hlast
    exact ⟨_, hcmd, congrArg Slc.held hlast, congrArg Slc.cmds hlast⟩

end Sys2Proof.Machine
end

section
/-! PROOFS. INCIDENTs from the line: which entry goes when the table is full, admission, updates, and a console's
VIEW. -/

namespace Sys2Proof.Machine

open Sys2Proof

/-! ## The least entry by a measure (R121, R123) -/

/-- One step of `leastBy`: the better of the best so far and the next entry, the former among equals. -/
def betterOf (f : Incident → Nat) (best : Option Incident) (e : Incident) : Option Incident :=
  match best with
  | none => some e
  | some b => if f e < f b then some e else some b

theorem leastBy_eq_foldl (f : Incident → Nat) (l : List Incident) : leastBy f l = l.foldl (betterOf f) none := rfl

/-- The better of two is no greater than either. -/
theorem betterOf_some (f : Incident → Nat) (best : Option Incident) (e : Incident) :
    ∃ b, betterOf f best e = some b ∧ f b ≤ f e ∧ ∀ x, best = some x → f b ≤ f x := by
  cases best with
  | none => exact ⟨e, rfl, Nat.le_refl _, by simp⟩
  | some a =>
    by_cases h : f e < f a
    · exact ⟨e, if_pos h, Nat.le_refl _, fun x hx => by cases hx; exact Nat.le_of_lt h⟩
    · exact ⟨a, if_neg h, Nat.not_lt.mp h, fun x hx => by cases hx; exact Nat.le_refl _⟩

/-- The least so far stays below the best before and every entry seen. -/
theorem foldl_betterOf_le {f : Incident → Nat} {l : List Incident} {best : Option Incident} {e : Incident}
    (h : l.foldl (betterOf f) best = some e) : (∀ x, best = some x → f e ≤ f x) ∧ ∀ x ∈ l, f e ≤ f x := by
  induction l generalizing best with
  | nil => exact ⟨fun x hx => by cases hx.symm.trans h; exact Nat.le_refl _, by simp⟩
  | cons y ys ih =>
    obtain ⟨hbest, hys⟩ := ih h
    obtain ⟨b, hb, hby, hbx⟩ := betterOf_some f best y
    have heb : f e ≤ f b := hbest b hb
    exact ⟨fun x hx => Nat.le_trans heb (hbx x hx), List.forall_mem_cons.mpr ⟨Nat.le_trans heb hby, hys⟩⟩

theorem leastBy_le {f : Incident → Nat} {l : List Incident} {e x : Incident} (h : leastBy f l = some e) (hx : x ∈ l) :
    f e ≤ f x := (foldl_betterOf_le ((leastBy_eq_foldl f l).symm.trans h)).2 x hx

/-- The oldest CLEARED entry is CLEARED, and none was cleared before it. -/
theorem oldestCleared_least {s : State} {x : Incident} (h : s.oldestCleared = some x) :
    x.state = .cleared ∧ ∀ y ∈ s.inu.table, y.state = .cleared → x.clearedAt.getD 0 ≤ y.clearedAt.getD 0 := by
  obtain ⟨-, hx⟩ := List.mem_filter.mp (leastBy_mem h)
  exact ⟨beq_iff_eq.mp hx, fun y hy hc => leastBy_le h (List.mem_filter.mpr ⟨hy, beq_iff_eq.mpr hc⟩)⟩

/-- The lowest peer entry is a peer's below the bound, of least severity, and the earliest admitted of that severity. -/
theorem lowestPeer_least {s : State} {below : Nat} {x : Incident} (h : s.lowestPeer below = some x) :
    x.own = false ∧ x.severity < below ∧ ∀ y ∈ s.inu.table, y.own = false → x.severity < y.severity ∨
      (x.severity = y.severity ∧ x.admittedAt ≤ y.admittedAt) := by
  unfold State.lowestPeer at h
  dsimp only at h
  split at h
  · next e he =>
    obtain ⟨hx, hsev⟩ := List.mem_filter.mp (leastBy_mem h)
    obtain ⟨-, hpeer⟩ := List.mem_filter.mp hx
    obtain ⟨hown, hbelow⟩ : x.own = false ∧ x.severity < below := by simpa using hpeer
    have hxe : x.severity = e.severity := beq_iff_eq.mp hsev
    refine ⟨hown, hbelow, fun y hy hyown => ?_⟩
    by_cases hyb : y.severity < below
    · have hyp : y ∈ s.inu.table.filter (fun e => !e.own && decide (e.severity < below)) :=
        List.mem_filter.mpr ⟨hy, by simp [hyown, hyb]⟩
      have hle : e.severity ≤ y.severity := leastBy_le he hyp
      rcases Nat.lt_or_eq_of_le hle with hlt | heq
      · exact .inl (hxe ▸ hlt)
      · exact .inr ⟨hxe.trans heq, leastBy_le h (List.mem_filter.mpr ⟨hyp, beq_iff_eq.mpr heq.symm⟩)⟩
    · exact .inl (Nat.lt_of_lt_of_le hbelow (Nat.not_lt.mp hyb))
  · cases h

/-! ## Admission (R121, R123) -/

section
variable {s : State}

theorem makeRoom_free (below : Nat) (h : s.inu.table.length < 32) : s.makeRoom below = some s := if_pos h

theorem makeRoom_cleared (below : Nat) {x : Incident} (h : 32 ≤ s.inu.table.length) (hx : s.oldestCleared = some x) :
    s.makeRoom below = some (s.evict x) := by
  rw [State.makeRoom, if_neg (Nat.not_lt.mpr h)]
  simp only [hx]

/-- With no CLEARED entry a peer's goes, or none. -/
theorem makeRoom_peer (below : Nat) (h : 32 ≤ s.inu.table.length) (hc : s.oldestCleared = none) :
    s.makeRoom below = (s.lowestPeer below).map s.evict := by
  rw [State.makeRoom, if_neg (Nat.not_lt.mpr h)]
  simp only [hc]

/-- A peer entry joins the table: the references and the effects follow, and an OPEN one is announced (R125, R127). -/
def State.joinPeer (s : State) (e : Incident) : State :=
  let v := (({ s with inu := { s.inu with table := s.inu.table ++ [e] } } : State).setRef e).actingMoved
  if e.state = .opened then v.announceInc e else v

theorem admitPeer_room {b : IncidentBody} {v : State} (h : s.makeRoom b.severity = some v) :
    s.admitPeer b = v.joinPeer (peerEntry s.runTime b) := by
  simp only [State.admitPeer, h, State.joinPeer, beq_iff_eq]

/-- With no room the INCIDENT is dropped and counted. -/
theorem admitPeer_noRoom {b : IncidentBody} (h : s.makeRoom b.severity = none) : s.admitPeer b = s.stepDrops := by
  simp only [State.admitPeer, h]

end

/-! ## Updates (R124) -/

section
variable {s : State} {e : Incident} {b : IncidentBody}

/-- The entry as an update gives it: admitted when it was, heard now. -/
def State.updatedEntry (s : State) (e : Incident) (b : IncidentBody) : Incident :=
  { peerEntry s.runTime b with admittedAt := e.admittedAt }

/-- The entry's parts are replaced, and the effects follow. -/
def State.replacePeer (s : State) (e : Incident) (b : IncidentBody) : State :=
  (s.updInc e.id (fun _ => s.updatedEntry e b)).actingMoved

theorem updatePeer_left (h : e.state = .cleared) : s.updatePeer e b = s := if_pos (beq_iff_eq.mpr h)

/-- CLEARED clears the entry, its other parts replaced. -/
theorem updatePeer_clears (h : e.state ≠ .cleared) (hb : b.state = .cleared) :
    s.updatePeer e b =
      (s.updInc e.id (fun _ => { s.updatedEntry e b with state := e.state })).clearInc e.id := by
  rw [State.updatePeer, if_neg (by simpa using h)]
  exact if_pos (beq_iff_eq.mpr hb)

/-- An update that does not clear: a STANDING entry that is OPEN again, a severity that rises, or the parts alone. -/
theorem updatePeer_moves (h : e.state ≠ .cleared) (hb : b.state ≠ .cleared) :
    s.updatePeer e b =
      if e.state = .standing ∧ b.state = .opened then
        ((s.replacePeer e b).announceInc (s.updatedEntry e b)).setRef (s.updatedEntry e b)
      else if (b.state = .opened ∨ b.state = .acked) ∧ e.severity < b.severity then
        (s.replacePeer e b).announceInc (s.updatedEntry e b)
      else s.replacePeer e b := by
  have hacts : (b.state.acts && decide (e.severity < b.severity)) = true ↔
      (b.state = .opened ∨ b.state = .acked) ∧ e.severity < b.severity := by
    cases b.state <;> simp [IncState.acts]
  have hreopens : (e.state == .standing && b.state == .opened) = true ↔ e.state = .standing ∧ b.state = .opened := by
    simp
  rw [State.updatePeer, if_neg (by simpa using h)]
  simp only [← hacts, ← hreopens]
  exact if_neg (by simpa using hb)

end

/-! ## INCIDENT (R188, R123, R124) -/

section
variable {s : State} {b : IncidentBody} {ts : List Received}

theorem takeIncident_own (h : b.id.node = s.cfg.node) : s.takeIncident b = s := if_pos (beq_iff_eq.mpr h)

/-- One that is not in the table, CLEARED or out of reach, is left. -/
theorem takeIncident_passed (hi : s.inc b.id = none) (h : b.state = .cleared ∨ s.reaches b.cover = false) :
    s.takeIncident b = s := by
  unfold State.takeIncident
  simp only [hi]
  rcases h with h | h
  · simp [h]
  · simp [h]

theorem takeIncident_new (hn : b.id.node ≠ s.cfg.node) (hi : s.inc b.id = none) (hb : b.state ≠ .cleared)
    (hreach : s.reaches b.cover = true) : s.takeIncident b = s.admitPeer b := by
  rw [State.takeIncident, if_neg (by simpa using hn)]
  simp only [hi]
  exact if_pos (by simp [hb, hreach])

theorem takeIncident_held {e : Incident} (hn : b.id.node ≠ s.cfg.node) (hi : s.inc b.id = some e) :
    s.takeIncident b = s.updatePeer e b := by
  rw [State.takeIncident, if_neg (by simpa using hn)]
  simp only [hi]

/-- The entry of an id has that id. -/
theorem inc_id {id : IncId} {e : Incident} (h : s.inc id = some e) : e.id = id :=
  beq_iff_eq.mp (List.find?_some (p := fun e : Incident => e.id == id) h)

theorem inc_of_inu {t : State} (h : t.inu = s.inu) (id : IncId) : t.inc id = s.inc id := by
  simp only [State.inc, h]

theorem execIncident_taken {t : Telegram} (hr : s.Ready) (hrole : s.cfg.role = .station) (hh : s.HeadIs t ts)
    (hb : t.body = .incident b) : exec .incident s = .next (finish ((s.withRx ts).takeIncident b)) := by
  simp only [exec, execIncident]
  rw [onKind_station s _ _ t ts hr.1 hrole hh (by simp only [hb])]
  simp only [hb]

/-- A VIEW asks no block for anything and marks no incident. -/
theorem view_rest (s : State) (x : ViewContent) (note : TxNote) :
    (s.view x note).work = s.work ∧ (s.view x note).inu = s.inu ∧ (s.view x note).cfg = s.cfg := by
  unfold State.view
  split
  · exact ⟨rfl, rfl, rfl⟩
  · obtain ⟨-, hwork, hinu⟩ :=
      restartGone_rest { s with slc := { s.slc with viewsLost := stepCount s.slc.viewsLost } } note
    exact ⟨hwork, hinu, congrArg Outside.cfg (restartGone_outside _ note)⟩

theorem reaches_console (cover : Option Span) (hrole : s.cfg.role = .console) : s.reaches cover = false := by
  simp [State.reaches, State.isStation, hrole]

/-- The head of the receive queue is forwarded before its blocks take it, if it is for this node (R168, R188). -/
theorem onTelegram_head {want : Body → Bool} (f : Telegram → State → State) {r : Received} (hrx : s.lbc.rx = r :: ts)
    (hw : want r.tg.body = true) :
    s.onTelegram want f =
      if ((s.withRx ts).forward r).forMe r.tg then f r.tg ((s.withRx ts).forward r) else (s.withRx ts).forward r := by
  have hpop : s.popRx = s.withRx ts := by
    simp only [State.popRx, State.withRx, hrx, List.drop_succ_cons, List.drop_zero]
  simp only [State.onTelegram, State.onReceived, State.takeTelegram, hrx, if_pos hw, hpop]

theorem onKind_head {want : Body → Bool} (f : Telegram → State → State) {r : Received} (hr : s.Ready)
    (hrx : s.lbc.rx = r :: ts) (hw : want r.tg.body = true) :
    onKind s want f = .next (finish (if ((s.withRx ts).forward r).forMe r.tg then f r.tg ((s.withRx ts).forward r)
      else (s.withRx ts).forward r)) := by
  have ho : s.rxHead want = true := by simp only [State.rxHead, hrx, hw]
  rw [onKind, onEvent_taken s _ _ hr.1 ho, onTelegram_head f hrx hw]

theorem forward_incident {r : Received} (hrole : s.cfg.role = .console) (hb : r.tg.body = .incident b) :
    s.forward r = s.view (.telegram r.bytes) := by
  rw [State.forward, if_neg (by simp [State.isStation, hrole])]
  simp only [hb]

/-- At a console node an INCIDENT goes to the workstation as it came, and reaches no block there (R188). -/
theorem execIncident_console {r : Received} (hr : s.Ready) (hrole : s.cfg.role = .console) (hrx : s.lbc.rx = r :: ts)
    (hb : r.tg.body = .incident b) (hi : s.inc b.id = none) :
    exec .incident s = .next ((s.withRx ts).view (.telegram r.bytes)) := by
  let v := (s.withRx ts).view (.telegram r.bytes)
  obtain ⟨hwork, hinu, hcfg⟩ := view_rest (s.withRx ts) (.telegram r.bytes) .none
  have hinc : v.inc b.id = none := (inc_of_inu hinu b.id).trans hi
  have hreach : v.reaches b.cover = false := reaches_console b.cover ((congrArg NodeConfig.role hcfg).trans hrole)
  have hquiet : v.Quiet := ⟨hwork.trans hr.2.1, (congrArg Inu.dirty hinu).trans hr.2.2⟩
  simp only [exec, execIncident]
  rw [onKind_head _ hr hrx, forward_incident (s := s.withRx ts) hrole hb]
  · simp only [hb]
    rw [takeIncident_passed hinc (.inr hreach), ite_self, finish_quiet _ hquiet]
  · simp only [hb]

/-- What an INCIDENT that is taken at a station node makes of the node. -/
theorem execIncident_eq {t : Telegram} {v : State} (hr : s.Ready) (hrole : s.cfg.role = .station) (hh : s.HeadIs t ts)
    (hb : t.body = .incident b) (hv : (s.withRx ts).takeIncident b = v) : exec .incident s = .next (finish v) :=
  hv ▸ execIncident_taken hr hrole hh hb

/-- One that is left changes nothing but the queue. -/
theorem execIncident_left {t : Telegram} (hr : s.Ready) (hrole : s.cfg.role = .station) (hh : s.HeadIs t ts)
    (hb : t.body = .incident b) (hv : (s.withRx ts).takeIncident b = s.withRx ts) :
    exec .incident s = .next (s.withRx ts) :=
  (execIncident_eq hr hrole hh hb hv).trans (congrArg _ (finish_withRx ts hr))

end

/-- Settles O43: by whose it is, the entry held, the room in the table; a console's VIEW; which entry is evicted. -/
theorem incidentsAreAdmitted : Obligations.IncidentsAreAdmitted := by
  refine ⟨?_, fun r b ts s hr hrole hrx hb hi => execIncident_console hr hrole hrx hb hi, fun below x s =>
    ⟨fun h => ⟨oldestCleared_mem h, oldestCleared_least h⟩, fun h => ⟨lowestPeer_mem h, lowestPeer_least h⟩⟩⟩
  intro sender b ts s hr hrole hh u
  have taken : ∀ {v : State}, u.takeIncident b = v → exec .incident s = .next (finish v) :=
    execIncident_eq hr hrole hh rfl
  have left : u.takeIncident b = u → exec .incident s = .next u := execIncident_left hr hrole hh rfl
  refine ⟨fun hn => left (takeIncident_own hn), fun hn hi h => left (takeIncident_passed hi h),
    fun hn hi hb hreach hfree => ?_, fun hn hi hb hreach hfull => ?_,
    fun e hn hi hc => left ((takeIncident_held (s := u) hn hi).trans (updatePeer_left hc)), fun e hn hi hc => ?_⟩
  · have room := makeRoom_free (s := u) b.severity hfree
    exact taken ((takeIncident_new (s := u) hn hi hb hreach).trans (admitPeer_room room))
  · intro joins
    have new := takeIncident_new (s := u) hn hi hb hreach
    refine ⟨fun x hx => ?_, fun x hx hp => ?_, fun hx hp => ?_⟩
    · exact taken (new.trans (admitPeer_room (makeRoom_cleared (s := u) b.severity hfull hx)))
    · have room := (makeRoom_peer (s := u) b.severity hfull hx).trans (congrArg (Option.map u.evict) hp)
      exact taken (new.trans (admitPeer_room room))
    · have room := (makeRoom_peer (s := u) b.severity hfull hx).trans (congrArg (Option.map u.evict) hp)
      exact (taken (new.trans (admitPeer_noRoom room))).trans (congrArg _ (finish_quiet u.stepDrops hr.2))
  · have hid := inc_id hi
    have clears := fun hb => (takeIncident_held (s := u) hn hi).trans (updatePeer_clears hc hb)
    have moves := fun hb => (takeIncident_held (s := u) hn hi).trans (updatePeer_moves hc hb)
    rw [State.replacePeer, hid] at moves
    rw [hid] at clears
    intro x v
    refine ⟨fun hb => taken (clears hb), fun hb hstanding hopened => ?_, fun hb hno hrise => ?_, fun h => ?_⟩
    · exact taken ((moves hb).trans (if_pos ⟨hstanding, hopened⟩))
    · have hb' : b.state ≠ .cleared := by rcases hb with hb | hb <;> simp [hb]
      exact taken ((moves hb').trans ((if_neg hno).trans (if_pos ⟨hb, hrise⟩)))
    · have hb' : b.state ≠ .cleared := by
        rcases h with h | ⟨h, -⟩
        · simp [h]
        · exact h
      have hno : ¬ (e.state = .standing ∧ b.state = .opened) := by
        rcases h with h | ⟨-, h, -⟩
        · simp [h]
        · exact h
      have hlow : ¬ ((b.state = .opened ∨ b.state = .acked) ∧ e.severity < b.severity) := by
        rcases h with h | ⟨-, -, h⟩
        · simp [h]
        · exact fun hr => Nat.not_lt.mpr h hr.2
      exact taken ((moves hb').trans ((if_neg hno).trans (if_neg hlow)))

end Sys2Proof.Machine
end

section
/-! PROOFS. The starts: cold starts and a held RESET, the image's two outcomes, the ends of LISTEN and of REBUILD, and
what a warm start keeps. -/

namespace Sys2Proof.Machine

open Sys2Proof

/-! ## The entry to LISTEN (R194) -/

/-- The start state after an image that passes its checks, or a warm start: LISTEN from the present running time. -/
theorem enterListen_start (s : State) : s.enterListen.cfl.start = .listen := by
  have hout := enterListen_outside s
  generalize s.enterListen = v at hout ⊢
  exact congrArg Outside.start hout

/-- An event that enters LISTEN ends with the outside part it entered with. -/
theorem finish_enterListen_outside (s : State) : (finish s.enterListen).outside = s.enterListen.outside :=
  finish_stays s.enterListen (by simp [enterListen_start])

/-- The parts that a warm start answers for and that are no outside part: the train table unit, the incident unit, the
restart's phase and the overrun flag. -/
def State.startParts (s : State) : Ttu × Inu × RestartPhase × Bool := (s.ttu, s.inu, s.cfl.restart, s.tiu.overrun)

theorem startFilters_startParts (s : State) : s.startFilters.startParts = s.startParts := by
  unfold State.startFilters
  split <;> rfl

theorem command_startParts (s : State) (c : FieldCmd) : (s.command c).startParts = s.startParts := by
  unfold State.command State.placeCommand State.placeBy
  split
  · rfl
  · split
    · cases c <;> rfl
    · rfl

theorem authoritiesOff_startParts (s : State) : s.authoritiesOff.startParts = s.startParts :=
  foldl_keeps State.startParts (fun t p => command_startParts t (.authority p false)) _ s

theorem requestSweep_startParts (s : State) (r : SweepReason) : (s.requestSweep r).startParts = s.startParts := by
  unfold State.requestSweep
  split
  · split
    · exact command_startParts ..
    · rfl
    · rfl
  · rfl

theorem startGates_startParts (s : State) : s.startGates.startParts = s.startParts := by
  refine foldl_keeps State.startParts (fun t k => ?_) _ s
  split <;> rfl

theorem raiseLostLink_startParts (s : State) : s.raiseLostLink.startParts = s.startParts := by
  unfold State.raiseLostLink
  split <;> rfl

theorem imagePoint_noPoints {s : State} (h : s.slc.image = noPoints) (n : Nat) : (s.imagePoint n).value = none := by
  rw [State.imagePoint, h, noPoints, List.getD_eq_getElem?_getD, List.getElem?_replicate]; split <;> rfl

theorem breakerReads_noPoints {s : State} (h : s.slc.image = noPoints) (k v : Nat) : s.breakerReads k v = false := by
  simp [State.breakerReads, imagePoint_noPoints h]

/-- A fold of which each step leaves the state as it is leaves it as it is. -/
theorem foldl_unchanged {α : Type} {g : State → α → State} {s : State} (hg : ∀ x, g s x = s) (l : List α) :
    l.foldl g s = s := by
  induction l with
  | nil => rfl
  | cons x xs ih => rw [List.foldl_cons, hg x, ih]

/-- With no point of the field image read there is no first breaker report. -/
theorem firstBreakerReports_noPoints {s : State} (h : s.slc.image = noPoints) : s.firstBreakerReports = s :=
  foldl_unchanged (fun k => by simp [breakerReads_noPoints h]) _

/-- Nor is there a first point report. -/
theorem firstPointReports_noPoints {s : State} (h : s.slc.image = noPoints) : s.firstPointReports = s :=
  foldl_unchanged (fun n => by simp [imagePoint_noPoints h]) _

/-- With no point of the field image read the entry to LISTEN leaves the trains, the incidents, the restart's phase and
the overrun flag. -/
theorem enterListen_startParts {s : State} (h : s.slc.image = noPoints) : s.enterListen.startParts = s.startParts := by
  let u := s.beginListen.initWatched.startStatusPeriod
  let v := ((u.startFilters.authoritiesOff).requestSweep .start).startGates
  have hfilters : u.startFilters.slc.image = u.slc.image := congrArg Outside.image (startFilters_outside u)
  have hbegin : u.slc.image = noPoints := by
    show (if s.isStation then s.slc.image else noPoints) = noPoints
    rw [h, ite_self]
  have hv : v.outside = u.startFilters.outside :=
    (startGates_outside _).trans ((requestSweep_outside _ _).trans (authoritiesOff_outside _))
  have himage : v.slc.image = noPoints := (congrArg Outside.image hv).trans (hfilters.trans hbegin)
  have hend : s.enterListen = v.raiseLostLink := by
    show ((v.firstBreakerReports).firstPointReports).raiseLostLink = _
    rw [firstBreakerReports_noPoints himage, firstPointReports_noPoints himage]
  calc s.enterListen.startParts
      = v.startParts := by rw [hend, raiseLostLink_startParts]
    _ = u.startFilters.startParts := by
      rw [startGates_startParts, requestSweep_startParts, authoritiesOff_startParts]
    _ = u.startParts := startFilters_startParts u
    _ = s.startParts := rfl

/-! ## WARM_START (R196) -/

/-- Settles O12: the entry to LISTEN leaves what the warm state has kept. -/
theorem warmStartKeeps : Obligations.WarmStartKeeps := by
  intro s hr hready u
  have hout : u.outside = _ := enterListen_outside s.warmState
  have hparts : u.startParts = s.warmState.startParts := enterListen_startParts rfl
  have htaken : exec .warmStart s = .next (finish u) := execWarmStart_taken hr hready
  generalize u = v at hout hparts htaken ⊢
  have httu : v.ttu = { Ttu.cold with launch := s.ttu.launch } := congrArg (·.1) hparts
  have hinu : v.inu = { Inu.cold with serial := s.inu.serial } := congrArg (·.2.1) hparts
  have hrestart : v.cfl.restart = .idle := congrArg (·.2.2.1) hparts
  have hoverrun : v.tiu.overrun = s.tiu.overrun := congrArg (·.2.2.2) hparts
  exact ⟨htaken, congrArg Outside.start hout, hrestart, congrArg Outside.cfg hout,
    (congrArg Ttu.launch httu :), congrArg Ttu.table httu, congrArg Ttu.tagCtr httu, (congrArg Inu.serial hinu :),
    congrArg Inu.table hinu, congrArg Outside.clock hout, hoverrun, congrArg Outside.runTime hout,
    congrArg Outside.refMoment hout⟩

/-! ## LISTEN_END and REBUILD_TIMER_EXPIRY (R194, R195, R64) -/

theorem listenOver_eq {s : State} {t0 : Nat} (hs : s.cfl.start = .listen) (ht : s.cfl.listenAt = some t0) :
    s.listenOver = decide (t0 + 20 ≤ s.runTime) := by
  simp [State.listenOver, State.reached, hs, ht]

/-- In REBUILD the expiry settles every side that is still ASKED, and so completes the rebuild. -/
theorem rebuildExpires_eq {s : State} (hs : s.cfl.start = .rebuild) :
    s.rebuildExpires =
      ({ s with hoe := { s.hoe with up := s.hoe.up.giveUp, down := s.hoe.down.giveUp } } : State).finishRebuild := by
  simp only [State.rebuildExpires, State.checkRebuild, hs, settled_giveUp, beq_self_eq_true, Bool.and_self, if_true]

theorem finish_finishRebuild_start (s : State) : (finish s.finishRebuild).cfl.start = .running := by
  have hrunning := finishRebuild_start s
  generalize s.finishRebuild = v at hrunning ⊢
  exact (congrArg Outside.start (finish_stays v (by simp [hrunning]))).trans hrunning

/-- Settles O11: both sides of the 20 ds, and the expiry by which every side is settled. -/
theorem listenAndRebuildEnd : Obligations.ListenAndRebuildEnd := by
  refine ⟨⟨fun s t0 hr hs ht hover => ?_, fun s t0 hs ht hbefore => ?_⟩, fun s hr hs hdue => ?_⟩
  · exact onEvent_taken s s.listenOver _ hr.1 (by simp [listenOver_eq hs ht, hover])
  · exact onEvent_passed s s.listenOver _ (.inr (by simp [listenOver_eq hs ht, hbefore]))
  · intro u
    have htaken : exec .rebuildTimerExpiry s = .next (finish s.rebuildExpires) :=
      onEvent_taken s _ _ hr.1 (by simp [hs, hdue])
    exact ⟨htaken.trans (by rw [rebuildExpires_eq hs]), finish_finishRebuild_start u⟩

/-! ## IMAGE_CHECKED (R192, R197) -/

theorem execImageChecked_passes {image : Bytes} {c : NodeConfig} {s : State} (hr : s.Ready)
    (hs : s.cfl.start = .loading) (hc : parseImage image = some c) :
    exec (.imageChecked image) s = .next (finish ({ s with cfg := c } : State).enterListen) := by
  simp only [exec, execImageChecked]
  rw [onEvent_taken s (s.cfl.start == .loading) _ hr.1 (by simp [hs]), hc]

/-- The entry to CONFIG_FAULT asks no block for anything. -/
theorem execImageChecked_fails {image : Bytes} {s : State} (hr : s.Ready) (hs : s.cfl.start = .loading)
    (hnone : parseImage image = none) : exec (.imageChecked image) s = .next s.enterFault := by
  have hquiet : s.enterFault.Quiet := hr.2
  simp only [exec, execImageChecked]
  rw [onEvent_taken s (s.cfl.start == .loading) _ hr.1 (by simp [hs]), hnone]
  exact congrArg _ (finish_quiet s.enterFault hquiet)

/-- Settles O10: the image's constants enter LISTEN, of which the end of the event moves nothing named here; an image
that fails enters CONFIG_FAULT. -/
theorem imageDecidesTheStart : Obligations.ImageDecidesTheStart := by
  refine ⟨fun image c s hr hs hc => ⟨_, execImageChecked_passes hr hs hc, rfl, ?_⟩, fun image s hr hs hnone =>
    execImageChecked_fails hr hs hnone⟩
  have hout := (finish_enterListen_outside { s with cfg := c }).trans (enterListen_outside _)
  generalize finish _ = t at hout ⊢
  have himage : t.slc.image = if c.role == .station then s.slc.image else noPoints := congrArg Outside.image hout
  refine ⟨congrArg Outside.cfg hout, congrArg Outside.start hout, congrArg Outside.listenAt hout,
    congrArg Outside.clock hout, himage.trans ?_⟩
  cases hrole : c.role with
  | station => rfl
  | console => rfl

/-! ## Cold starts and a held RESET (R193) -/

section Held

variable {s : State} (h : s.pins.resetLow = true)
include h

/-- A node whose RESET is held low takes no event. -/
theorem onEvent_held (o : Bool) (f : State → State) : onEvent s o f = .next s := onEvent_passed s o f (.inl h)

theorem onCycle_held (cycle : Nat) (occasion : Nat → Bool) (f : Nat → State → State) :
    onCycle s cycle occasion f = .next s := onEvent_held h ..

theorem onReport_held (want : Report → Bool) (f : Report → State → State) : onReport s want f = .next s :=
  onEvent_held h ..

theorem onReceivedKind_held (want : Body → Bool) (f : Received → State → State) :
    onReceivedKind s want f = .next s := onEvent_held h ..

theorem onKind_held (want : Body → Bool) (f : Telegram → State → State) : onKind s want f = .next s :=
  onEvent_held h ..

theorem onDirectiveKind_held (want : Directive → Bool) : onDirectiveKind s want = .next s := onKind_held h ..

theorem onPlatform_held (p : Nat) (o : Bool) (f : PlatformCfg → State → State) : onPlatform s p o f = .next s := by
  unfold onPlatform
  split <;> exact onEvent_held h ..

theorem onEdge_held (i cycle : Nat) (active : Bool) (use : TrackUse → Option Nat)
    (f : Nat → Option Nat → State → State) : onEdge s i cycle active use f = .next s := by
  unfold onEdge
  split <;> exact onEvent_held h ..

theorem execFirstLevel_held (i cycle : Nat) : execFirstLevel i cycle s = .next s := by
  unfold execFirstLevel
  split <;> exact onEvent_held h ..

theorem execValidFrame_held (bytes : Bytes) : execValidFrame bytes s = .next s := by
  unfold execValidFrame
  split <;> exact onEvent_held h ..

end Held

/-- The commands that are taken while RESET is held low: power, the pins, and the tick of the divider (log 1). -/
def takenWhileHeld : Instr → Bool
  | .powerOn | .resetRelease | .tick | .trackInputChange .. | .readyRise | .readyFall => true
  | _ => false

/-- While RESET is held low every other command changes nothing. -/
theorem exec_held {c : Instr} {s : State} (h : s.pins.resetLow = true) (hc : takenWhileHeld c = false) :
    exec c s = .next s := by
  cases c with
  | powerOn | resetRelease | tick | trackInputChange | readyRise | readyFall => cases hc
  | resetAssert => exact congrArg Host.Outcome.next (if_pos h)
  | dwellMark | dwellExpiry | authWaitExpiry | cueWaitExpiry | powerWaitExpiry => exact onPlatform_held h ..
  | berthRise | brakePointRise | berthFall | brakePointFall =>
    simp only [exec]
    exact onEdge_held h ..
  | firstLevel i cycle => exact execFirstLevel_held h i cycle
  | validFrame bytes => exact execValidFrame_held h bytes
  | transmitStart | telegramSent | collision | echoFault | telegramReceived | fragment =>
    simp only [exec]
    exact onCycle_held h ..
  | point | sweepBegin | sweepEnd | workstationDirective | planClear | planEntry | planSend =>
    simp only [exec]
    exact onReport_held h ..
  | status =>
    simp only [exec]
    exact onReceivedKind_held h ..
  | handover | takeover | refusal | renewAsk | renewReply | powerAsk | powerReturn | powerGrant | powerDefer | incident
  | planOpen | planBlock | planClose | answer =>
    simp only [exec]
    exact onKind_held h ..
  | ackIncident | clearIncident | declareIncident | clearOverflow | announce | cancelAnnounce | isolateSection
  | restoreSection | holdTrain | releaseTrain | withdrawRun | insertRun | setMode | fieldQuery | dayStart | restartNode
  | unknownDirective =>
    simp only [exec]
    exact onDirectiveKind_held h ..
  | _ =>
    simp only [exec]
    exact onEvent_held h ..

/-- Settles O9: the cold starts by their definitions, and a held RESET by the shapes of the commands' meanings. -/
theorem coldStartsBeginLoading : Obligations.ColdStartsBeginLoading := by
  refine ⟨fun s => rfl, ⟨fun s hhigh => ?_, fun s hlow => ?_⟩, fun c s h => ?_⟩
  · exact congrArg Host.Outcome.next (if_neg (by simp [hhigh]))
  · exact congrArg Host.Outcome.next (if_pos hlow)
  · split
    case h_7 => exact exec_held h (by grind [takenWhileHeld])
    all_goals trivial

end Sys2Proof.Machine
end

section
/-! PROOFS. The queue of commands, of which none stops the part; and telegrams, read back whole from their bytes. -/

namespace Sys2Proof.Machine

open Sys2Proof

/-! ## The queue of commands -/

/-- Settles O1, by the two shapes of the queue. -/
theorem stepTakesTheFront : Obligations.StepTakesTheFront := by
  refine ⟨fun c rest s hfront => ?_, fun s hempty => ?_⟩
  · rw [step, hfront]
  · rw [step, hempty]

/-! ## Every command answers -/

/-- Whether an event has its occasion or not, its answer is a next state. -/
theorem onEvent_answers (s : State) (o : Bool) (f : State → State) : ∃ t, onEvent s o f = .next t := ⟨_, rfl⟩

theorem onPlatform_answers (s : State) (p : Nat) (o : Bool) (f : PlatformCfg → State → State) :
    ∃ t, onPlatform s p o f = .next t := by
  unfold onPlatform
  split <;> exact onEvent_answers ..

theorem onEdge_answers (s : State) (i cycle : Nat) (active : Bool) (use : TrackUse → Option Nat)
    (f : Nat → Option Nat → State → State) : ∃ t, onEdge s i cycle active use f = .next t := by
  unfold onEdge
  split <;> exact onEvent_answers ..

theorem execFirstLevel_answers (i cycle : Nat) (s : State) : ∃ t, execFirstLevel i cycle s = .next t := by
  unfold execFirstLevel
  split <;> exact onEvent_answers ..

theorem execValidFrame_answers (bytes : Bytes) (s : State) : ∃ t, execValidFrame bytes s = .next t := by
  unfold execValidFrame
  split <;> exact onEvent_answers ..

/-- Settles O3: some commands first look up a platform, a candidate level or a frame, and are events with or without it;
every other command's meaning is a next state as it stands. -/
theorem everyCommandAnswersNext : Obligations.EveryCommandAnswersNext := by
  intro c s
  cases c with
  | dwellMark | dwellExpiry | authWaitExpiry | cueWaitExpiry | powerWaitExpiry => exact onPlatform_answers ..
  | berthRise | brakePointRise | berthFall | brakePointFall =>
    simp only [exec]
    exact onEdge_answers ..
  | firstLevel i cycle => exact execFirstLevel_answers i cycle s
  | validFrame bytes => exact execValidFrame_answers bytes s
  | _ => exact ⟨_, rfl⟩

/-! ## Telegrams, read back from their bytes (12.2, R200) -/

theorem readAll_readBody_emit {b : Body} (h : b.fits) : readAll (readBody b.code) (emitBody b) = some b := by
  rw [readAll, readBody_emit b h]

/-- The two bytes of a checksum hold it whole. -/
theorem natOf_crc16_bytes (bs : Bytes) : natOf (bytesOf 2 (crc16 bs)) = crc16 bs :=
  (natOf_bytesOf 2 _).trans (Nat.mod_eq_of_lt (crc16_lt bs))

theorem byteOf_toNat_of_le {n : Nat} (h : n ≤ 255) : (byteOf n).toNat = n := by
  rw [byteOf_toNat, Nat.mod_eq_of_lt (by omega)]

theorem checkHead_of_fits {t : Telegram} (h : t.fits) : checkHead (classCode t.body.cls) t.sender t.target t.body := by
  obtain ⟨hlow, hhigh, htarget, hbroadcast, _⟩ := h
  have hto : t.body.broadcast = (t.target == 0) := Bool.eq_iff_iff.mpr (by simpa using hbroadcast)
  simp [checkHead, hlow, hhigh, htarget, hto]

theorem emitHead_length (t : Telegram) : (emitHead t).length = 5 + (emitBody t.body).length := by
  simp +arith [emitHead]

/-- A telegram's bytes are its five header bytes, its body and its checksum. -/
theorem emitTelegram_eq (t : Telegram) :
    emitTelegram t = byteOf t.body.code :: byteOf (classCode t.body.cls) :: byteOf t.sender :: byteOf t.target ::
      byteOf (emitBody t.body).length :: (emitBody t.body ++ bytesOf 2 (crc16 (emitHead t))) := rfl

theorem take_emitTelegram (t : Telegram) : (emitTelegram t).take (5 + (emitBody t.body).length) = emitHead t := by
  rw [emitTelegram, ← emitHead_length, List.take_left]

/-- The length byte is the body's own length, so that the bytes end where the telegram ends. -/
theorem isWhole_emitTelegram {t : Telegram} (h : t.body.fits) : isWhole (emitTelegram t) = true := by
  have hlen := emitBody_length t.body h
  rw [emitTelegram_eq, isWhole, byteOf_toNat_of_le (by omega)]
  simp +arith [bytesOf_length]

/-- The header bytes, the length and the checksum agree with the body, and the body reads back. -/
theorem parseTelegram_emitTelegram {t : Telegram} (h : t.fits) : parseTelegram (emitTelegram t) = some t := by
  have hhead := checkHead_of_fits h
  obtain ⟨_, hsender, htarget, _, hbody⟩ := h
  obtain ⟨hcode, hclass⟩ := body_code t.body
  have hlen := emitBody_length t.body hbody
  have htake := take_emitTelegram t
  rw [emitTelegram_eq] at htake ⊢
  rw [parseTelegram, byteOf_toNat_of_le (n := (emitBody t.body).length) (by omega), htake]
  simp [bytesOf_length, hlen, natOf_crc16_bytes, byteOf_toNat_of_le hcode, byteOf_toNat_of_le hclass,
    byteOf_toNat_of_le (n := t.sender) (by omega), byteOf_toNat_of_le (n := t.target) (by omega),
    readAll_readBody_emit hbody, hhead]

/-- Settles O48: each kind's body reads back, and the header around it. -/
theorem telegramsReadBack : Obligations.TelegramsReadBack := fun _ h =>
  have ⟨_, _, _, _, hbody⟩ := h
  ⟨parseTelegram_emitTelegram h, isWhole_emitTelegram hbody⟩

end Sys2Proof.Machine
end
